-- ==== Sys2Proof/Word.lean ====
section
/-! DEFINITION. The plain data types the other files share: bytes, epoch numbers, station numbers, groups, line
levels, sets of stations as bit patterns, and tables of a fixed number of entries. -/

namespace Sys2Proof

/-- One byte of the local port or of a frame payload. -/
abbrev Byte := BitVec 8
/-- An epoch number: 16 bits, wrapping modulo 65536 (00_scope, Epoch Arithmetic). -/
abbrev Epoch := BitVec 16
/-- An order sequence value, 0..255, wrapping from 255 to 0 (R5). -/
abbrev Seq := BitVec 8
/-- A station number, 0..31. -/
abbrev StationNo := Fin 32
/-- A tile group, 0..7. -/
abbrev Group := Fin 8
/-- A set of groups: bit g stands for group g (section 8.2). -/
abbrev GroupMask := BitVec 8
/-- An index of the tone table, 0..63 (R70). -/
abbrev ToneIndex := Fin 64
/-- A profile digest (R178). -/
abbrev Digest := BitVec 16
/-- A set of station numbers: bit s stands for station s (section 11.2). -/
abbrev StationSet := BitVec 32

/-- The level of a wired-AND line as every station reads it (00_scope, Line Sense): low is dominant, high is
recessive. -/
inductive Level where
  | low
  | high
  deriving DecidableEq, Repr

/-- A table of exactly `n` entries, numbered from 0. -/
structure Table (α : Type) (n : Nat) where
  items : List α
  sized : items.length = n
  deriving DecidableEq, Repr

/-- The table that holds `a` in every entry. -/
def Table.fill {α : Type} (n : Nat) (a : α) : Table α n := ⟨List.replicate n a, List.length_replicate⟩

/-- Entry `i`. -/
def Table.get {α : Type} {n : Nat} (t : Table α n) (i : Fin n) : α := t.items.get (i.cast t.sized.symm)

/-- The table with entry `i` replaced by `a`. -/
def Table.set {α : Type} {n : Nat} (t : Table α n) (i : Fin n) (a : α) : Table α n :=
  ⟨t.items.set i.val a, by rw [List.length_set]; exact t.sized⟩

/-- The table with `f` applied to every entry. -/
def Table.map {α β : Type} {n : Nat} (f : α → β) (t : Table α n) : Table β n :=
  ⟨t.items.map f, by rw [List.length_map]; exact t.sized⟩

/-- The table with `f` applied to every entry together with the entry's number. -/
def Table.mapWith {α β : Type} {n : Nat} (f : Nat → α → β) (t : Table α n) : Table β n :=
  ⟨t.items.mapIdx f, by rw [List.length_mapIdx]; exact t.sized⟩

/-- The list with its first empty place filled by `a`; unchanged when no place is empty. -/
def fillFirst {α : Type} (a : α) : List (Option α) → List (Option α)
  | [] => []
  | none :: rest => some a :: rest
  | some b :: rest => some b :: fillFirst a rest

theorem fillFirst_length {α : Type} (a : α) (l : List (Option α)) : (fillFirst a l).length = l.length := by
  induction l with
  | nil => rfl
  | cons o rest ih => cases o with
    | none => rfl
    | some b => simp [fillFirst, ih]

/-- The table of slots with `a` in its lowest-numbered free slot (R3, R7). -/
def Table.putFirstFree {α : Type} {n : Nat} (t : Table (Option α) n) (a : α) : Table (Option α) n :=
  ⟨fillFirst a t.items, by rw [fillFirst_length]; exact t.sized⟩

/-- The records held in the slots, lowest slot first. -/
def Table.held {α : Type} {n : Nat} (t : Table (Option α) n) : List α := t.items.filterMap id

/-- The table with every record that `p` picks out removed; the other records keep their slots. -/
def Table.dropWhere {α : Type} {n : Nat} (t : Table (Option α) n) (p : α → Bool) : Table (Option α) n :=
  t.map fun o => if o.any p then none else o

/-- The table with `f` applied to every record that `p` picks out. -/
def Table.updateWhere {α : Type} {n : Nat} (t : Table (Option α) n) (p : α → Bool) (f : α → α) :
    Table (Option α) n :=
  t.map fun o => if o.any p then o.map f else o

end Sys2Proof
end

