-- ==== Sys2Proof/Syntax.lean ====
section
/-! DEFINITION. The commands of the station: one constructor of `Instr` for every row of spec/opcode_table.json, with the
row's operands, and the field values those operands take (sections 8.2 and 11.2). -/

namespace Sys2Proof

/-- Phase mode of an order (R1; codes of section 8.2: 1 RESTART, 2 CONTINUE). -/
inductive PhaseMode where
  | restart
  | continued
  deriving DecidableEq, Repr

/-- The six grounds on which a member refuses a proposal (R17), in the order of their codes 1..6. -/
inductive Ground where
  | stranger
  | dupId
  | late
  | noTone
  | clash
  | full
  deriving DecidableEq, Repr

/-- The verdict a VOTE carries (R17; section 8.2). -/
inductive Verdict where
  | accept
  | refuse (ground : Ground)
  deriving DecidableEq, Repr

/-- Why an order was aborted (R13). `unsent` occurs in the ORDER_ABORTED notice of the originator alone: no ABORT frame
carries it. -/
inductive AbortReason where
  | refused (ground : Ground)
  | timeout
  | withdrawn
  | commitLost
  | originLeaving
  | unsent
  deriving DecidableEq, Repr

/-- The state a HELLO announces (section 8.2). -/
inductive HelloState where
  | forming
  | arriving
  | member
  deriving DecidableEq, Repr

/-- The cause of a withdrawal (R115), which is also the reason of a LEAVE frame (section 8.2). -/
inductive Cause where
  | holdFault
  | tally
  | duplicate
  | stop
  deriving DecidableEq, Repr

/-- The seven frame kinds (section 8.2), most urgent first. -/
inductive FrameKind where
  | abort
  | commit
  | vote
  | propose
  | epoch
  | hello
  | leave
  deriving DecidableEq, Repr

/-- The payload of a frame: its kind and the kind's fields in the order of the frame layout table (section 8.2). -/
inductive Payload where
  | abort (seq : Seq) (target : Epoch) (reason : AbortReason) (refuser : StationNo)
  | commit (seq : Seq) (target : Epoch)
  | vote (origin : StationNo) (seq : Seq) (verdict : Verdict)
  | propose (seq : Seq) (target : Epoch) (mask : GroupMask) (tone : ToneIndex) (mode : PhaseMode)
  | epoch (mark horizon : Epoch) (digest : Digest)
  | hello (state : HelloState) (group : Group) (digest : Digest)
  | leave (reason : Cause)
  deriving DecidableEq, Repr

/-- The commands: the requests of the local port with their argument fields, the reference clock, the named points of the
epoch phase with the CH level read there, the edges of CH, the ends of the spans, the frames the Bus Interface accepts
with their sender and fields, and the events of the Bus Interface. -/
inductive Instr where
  -- the reset pin and the local port (chapter 11)
  | powerOnReset
  | loadParameter (id : Byte) (value : BitVec 24)
  | loadTone (index : Byte) (frequency : BitVec 32) (offset amplitude : BitVec 16)
  | clearTone (index : Byte)
  | start
  | stop
  | restart
  | submit (target : Epoch) (mask tone mode : Byte)
  | withdraw (seq : Byte)
  | veto (origin seq : Byte)
  | readStatus
  | readRoster
  | readOrder (slot : Byte)
  | readBallot (slot : Byte)
  | readTallies
  | clearTallies
  | takeNotice
  | badRequest (code : Byte)
  -- the reference clock (chapter 4)
  | carrierSample
  -- the named points of the epoch phase (chapter 2)
  | epochBoundary (ch : Level)
  | markRelease (ch : Level)
  | vetoPoint
  | vetoSample (ch : Level)
  | vetoRelease
  -- the edges of CH (chapter 2)
  | markLagRise
  | formationRise
  | formationHoldFault
  | alignmentPulseEnd
  -- the ends of spans (chapters 5 and 6)
  | listenSpanEnd
  | alignmentSpanEnd
  | helloFormingRepeat
  | formationSlow
  -- the frames the Bus Interface accepts (R146)
  | proposeAccepted (sender : StationNo) (seq : Seq) (target : Epoch) (mask : GroupMask) (tone : ToneIndex) (mode : PhaseMode)
  | voteAccepted (voter origin : StationNo) (seq : Seq) (verdict : Verdict)
  | commitAccepted (sender : StationNo) (seq : Seq) (target : Epoch)
  | abortAccepted (sender : StationNo) (seq : Seq) (target : Epoch) (reason : AbortReason) (refuser : StationNo)
  | epochAccepted (sender : StationNo) (mark horizon : Epoch) (digest : Digest)
  | helloAccepted (sender : StationNo) (state : HelloState) (group : Group) (digest : Digest)
  | leaveAccepted (sender : StationNo) (reason : Cause)
  -- the other events of the Bus Interface (chapter 8)
  | frameFailed
  | receiveError
  | attemptStart
  | arbitrationLost
  | bitMonitorMismatch (atStart : Bool)
  | frameTransmitted
  | attemptSpoiled
  | cdFall
  | slotReading (cd : Level)
  | chFall
  | spoiledFrame
  deriving DecidableEq, Repr

end Sys2Proof
end

