-- ==== Sys2Proof/Decode.lean ====
section
/-! DEFINITION. Reading commands. The opcode table gives no row any bits, so no table word spells a command. The commands of
the tile controller have an encoding of their own, the transactions of the local port (R172, section 11.2), which is read
here; no step of the machine goes through it, since a request reaches the station as a whole. -/

namespace Sys2Proof

/-- The command a table word spells: none, since spec/opcode_table.json gives its rows no bits. -/
def decodeTableWord (_nbits _w : Nat) : Option Instr := none

/-- The request a write transaction carries: its code and its argument bytes, most significant byte first. A code that is
not in the request table, or a wrong number of argument bytes, is BAD_REQUEST (R174). -/
def requestOf (code : Byte) (args : List Byte) : Instr :=
  match code.toNat, args with
  | 0x01, [id, v2, v1, v0] => .loadParameter id (v2 ++ v1 ++ v0)
  | 0x02, [index, f3, f2, f1, f0, o1, o0, a1, a0] => .loadTone index (f3 ++ f2 ++ f1 ++ f0) (o1 ++ o0) (a1 ++ a0)
  | 0x03, [index] => .clearTone index
  | 0x04, [] => .start
  | 0x05, [] => .stop
  | 0x06, [] => .restart
  | 0x07, [t1, t0, mask, tone, mode] => .submit (t1 ++ t0) mask tone mode
  | 0x08, [seq] => .withdraw seq
  | 0x09, [origin, seq] => .veto origin seq
  | 0x0A, [] => .readStatus
  | 0x0B, [] => .readRoster
  | 0x0C, [slot] => .readOrder slot
  | 0x0D, [slot] => .readBallot slot
  | 0x0E, [] => .readTallies
  | 0x0F, [] => .clearTallies
  | 0x10, [] => .takeNotice
  | _, _ => .badRequest code

/-- The command a transaction carries, from its complete bytes: none for a transaction without a byte, which has no effect,
and for a read transaction (code 00h), which takes no request (R172, R173). -/
def transactionCommand : List Byte → Option Instr
  | [] => none
  | code :: args => if code = 0 then none else some (requestOf code args)

/-- One bit as a number. -/
def bitByte (b : Bool) : Byte := if b then 1 else 0

/-- The complete bytes among the bits shifted in on LDI, most significant bit first; bits that complete no byte are
discarded (R172). -/
def shiftedBytes : List Bool → List Byte
  | b7 :: b6 :: b5 :: b4 :: b3 :: b2 :: b1 :: b0 :: rest =>
    (128 * bitByte b7 + 64 * bitByte b6 + 32 * bitByte b5 + 16 * bitByte b4 + 8 * bitByte b3 + 4 * bitByte b2 +
      2 * bitByte b1 + bitByte b0) :: shiftedBytes rest
  | _ => []

end Sys2Proof
end

