-- ==== Sys2Proof/Config.lean ====
section
/-! DEFINITION. The sizes and constants that the manual fixes for the part. The manual leaves no value of an
operation open, so there is no free value here (NOTES.md, Assumptions). -/

namespace Sys2Proof.Config

/-- Places of the Transmit Queue (R151). -/
def queuePlaces : Nat := 8
/-- Places of the notice queue (R168). -/
def noticePlaces : Nat := 16
/-- Spoiled attempts after which a frame is dropped (R144). -/
def maxAttempts : Nat := 8
/-- Recessive slots outside a frame that make the bus idle (R137). -/
def idleSlots : Nat := 6
/-- END slots of a frame (section 8.2). -/
def endSlots : Nat := 4
/-- The top of a tally and of the overflow count (R161, R168). -/
def tallyTop : Nat := 255
/-- The top of the consecutive-withdrawal count (R118). -/
def withdrawalTop : Nat := 15
/-- The mark boundaries that make a member steady (R118). -/
def steadyMarks : Nat := 64
/-- Listen spans after which FORMATION_SLOW is posted (R98). -/
def slowSpans : Nat := 8
/-- The generator's fixed latency in reference clocks (R81). -/
def fixedLatency : Nat := 9
/-- The longest delay between a sample and the port: 9 + 255 clocks (R81). -/
def delayLineLength : Nat := 264
/-- Starting value of the check register (R138). -/
def checkStart : BitVec 16 := 0xFFFF
/-- The generator x^16 + x^12 + x^5 + 1 without its top term (R138). -/
def checkGenerator : BitVec 16 := 0x1021
/-- How deep one loss can lead to another: each level frees one of at most four open ballots (R7), so this depth is
never used up (assumption 13). -/
def lossDepth : Nat := 8

end Sys2Proof.Config
end

