-- ==== Sys2Proof/Machine/State.lean ====
section
/-! DEFINITION. The state of one station: every register, table, queue, counter, flag and pin the manual gives the
EF410, block by block (00_scope, Block Overview), the queue of waiting commands, and the state after power-on reset
(R180). A record that the present station state does not hold (a stopped timer, an empty set) stands at zero or empty. -/

namespace Sys2Proof.Machine

/-- The profile (R176): eight cohort parameters, then seven station parameters. -/
structure Profile where
  /-- ℓ, the epoch exponent -/
  epochExp : Nat
  /-- m, the mark exponent -/
  markExp : Nat
  /-- C, the commit lead -/
  commitLead : Nat
  /-- E, the expected count -/
  expected : Nat
  /-- D, the slot divider -/
  slotDivider : Nat
  /-- S, the silence limit -/
  silenceLimit : Nat
  /-- W, the skew window -/
  skewWindow : Nat
  /-- K, the listen factor -/
  listenFactor : Nat
  station : StationNo
  group : Group
  outputDelay : Nat
  threshold : Nat
  /-- bit k − 1 for tally kind k -/
  withdrawMask : BitVec 6
  /-- bit k − 1 for notice kind k -/
  noticeMask : BitVec 18
  rejoinLimit : Nat
  deriving DecidableEq, Repr

/-- One entry of the tone table (R70). -/
structure ToneEntry where
  frequency : BitVec 32
  offset : BitVec 16
  amplitude : BitVec 12
  valid : Bool
  deriving DecidableEq, Repr

/-- An order id: the originator and its sequence value (00_scope, Order Identity). -/
structure OrderId where
  origin : StationNo
  seq : Seq
  deriving DecidableEq, Repr

/-- The state of an order record (R2). -/
inductive OrderState where
  | pending
  | ready
  deriving DecidableEq, Repr

/-- This station's part in the ballot of an order (R1). -/
inductive VoteField where
  | none
  | accepted
  | unsent
  deriving DecidableEq, Repr

/-- An order record (R1) with its armed indication (R57). -/
structure Order where
  id : OrderId
  target : Epoch
  mask : GroupMask
  tone : ToneIndex
  mode : PhaseMode
  state : OrderState
  vote : VoteField
  vetoRequest : Bool
  armed : Bool
  deriving DecidableEq, Repr

/-- The state of an open ballot (R7). -/
inductive BallotState where
  | awaitingSend
  | collecting
  | committing
  deriving DecidableEq, Repr

/-- An open ballot (R7). The origin of its order is always this station. -/
structure Ballot where
  seq : Seq
  target : Epoch
  electorate : StationSet
  accepted : StationSet
  state : BallotState
  deriving DecidableEq, Repr

/-- The Order Engine: the Schedule (R3), the Ballot table (R7) and the sequence counter (R5). -/
structure OrderEngine where
  schedule : Table (Option Order) 16
  ballots : Table (Option Ballot) 4
  sequence : Seq
  deriving DecidableEq, Repr

/-- The epoch counter and phase, present together (R29). -/
structure Grid where
  counter : Epoch
  /-- reference clocks since the boundary, 0..L − 1 -/
  phase : Nat
  /-- the phase of the last named point taken in the present epoch, 0 at its boundary; the model's own record, by which each
  point is taken once and the two orders of R66 are told apart (assumption 6) -/
  point : Nat
  /-- whether the phase would have passed L − 1, so that the boundary is to be taken at this clock (R29); the model's own
  record (assumption 3) -/
  due : Bool
  deriving DecidableEq, Repr

/-- The claims on CH (R33). -/
structure Claims where
  formation : Bool
  mark : Bool
  veto : Bool
  deriving DecidableEq, Repr

/-- A kept mark reading (R45). -/
structure MarkReading where
  mark : Epoch
  lead : Nat
  lag : Nat
  deriving DecidableEq, Repr

/-- The mark measurement of the present mark epoch: the lead (R43), the clock of the own release and the lag once fixed
(R44). -/
structure Provisional where
  mark : Epoch
  lead : Nat
  released : Option Nat
  lag : Option Nat
  deriving DecidableEq, Repr

/-- The alignment reference: the mark epoch of an EPOCH frame and the clock at which its START slot began (R50). -/
structure Reference where
  mark : Epoch
  start : Nat
  deriving DecidableEq, Repr

/-- The Epoch Timer (chapter 2). -/
structure EpochTimer where
  grid : Option Grid
  claims : Claims
  lastReading : Option MarkReading
  provisional : Option Provisional
  /-- clock of the last fall of CH since the veto release opened the lead window (R43) -/
  leadFall : Option Nat
  reference : Option Reference
  /-- clock of the fall of the low pulse in progress while ALIGNING, if it was seen (R49) -/
  pulseFall : Option Nat
  /-- clock of the fall of the first mark pulse that fell after the START of the frame being read and has ended, while that
  frame is not accepted yet (R51) -/
  endedPulse : Option Nat
  deriving DecidableEq, Repr

/-- The station state (R84). -/
inductive StationState where
  | idle
  | listen
  | forming
  | aligning
  | arriving
  | member
  | leaving
  deriving DecidableEq, Repr

/-- What this station believes a peer to be (R121). -/
inductive Presence where
  | absent
  | arriving
  | member
  deriving DecidableEq, Repr

/-- One Roster entry (R121); `group` is none while unknown. -/
structure RosterEntry where
  presence : Presence
  group : Option Group
  silence : Nat
  deriving DecidableEq, Repr

/-- Where a withdrawal ends (R115). -/
inductive Destination where
  | listen
  | idle
  deriving DecidableEq, Repr

/-- What a LEAVING station remembers (R116): the previous state, the cause and the destination. -/
structure Leaving where
  previous : StationState
  cause : Cause
  destination : Destination
  deriving DecidableEq, Repr

/-- The Membership Controller (chapters 5 to 7). -/
structure Membership where
  state : StationState
  /-- clocks of the present listen span (R90) -/
  listenTimer : Nat
  cohortSeen : Bool
  /-- the mismatch record of LISTEN and FORMING (R90, R93) -/
  mismatch : StationSet
  /-- the formation set: the group of every station in it (R95) -/
  formation : Table (Option Group) 32
  repeatTimer : Nat
  slowTimer : Nat
  /-- whether FORMATION_SLOW has been posted since entry to FORMING (R98) -/
  slowPosted : Bool
  /-- clocks of the alignment span (R107) -/
  alignTimer : Nat
  /-- the running mismatch record of ALIGNING, ARRIVING and MEMBER (R106) -/
  runningMismatch : StationSet
  blindHorizon : Option Epoch
  /-- the consecutive-withdrawal count (R118) -/
  withdrawals : Nat
  /-- the member mark count (R118) -/
  memberMarks : Nat
  /-- the presence quiet count (R131) -/
  quiet : Nat
  leaving : Option Leaving
  roster : Table RosterEntry 32
  deriving DecidableEq, Repr

/-- A frame held in the Transmit Queue (R151). `ident` tells one frame from another and grows with every frame taken in;
`age` is the ident of the frame that first took the place, so that a replacement keeps the age of the frame it replaced.
The producer and the order id follow from the payload. -/
structure QueueEntry where
  ident : Nat
  age : Nat
  payload : Payload
  deriving DecidableEq, Repr

/-- The Transmit Queue (chapter 9): its entries, oldest age first, and the next ident. -/
structure TransmitQueue where
  entries : List QueueEntry
  nextIdent : Nat
  deriving DecidableEq, Repr

/-- The frame being read from CD (R136): the clock of its START, the epoch counter at its START (R105), the slots read
so far from START on, most significant bit first, where true is recessive, a one, and whether its outcome has been taken, as
accepted, as discarded, or as the outcome of an attempt of this station (R145, R147). -/
structure Reading where
  start : Nat
  counter : Option Epoch
  slots : List Bool
  settled : Bool
  deriving DecidableEq, Repr

/-- The frame in transmission (R140): the queued frame it was taken from, the payload fixed at its START, whether it has
been displaced (R154), whether it is removed when the attempt ends (R158), and whether the sender has seen a mismatch
(R142). -/
structure Sending where
  ident : Nat
  payload : Payload
  displaced : Bool
  removeAfter : Bool
  mismatch : Bool
  deriving DecidableEq, Repr

/-- The Bus Interface (chapter 8). -/
structure BusInterface where
  /-- clocks since the present slot began (R135) -/
  slotTimer : Nat
  /-- whether the present slot has been read: CD is read once per slot (R135) -/
  slotRead : Bool
  /-- consecutive recessive slots outside a frame, 0..6 (R137) -/
  idleCount : Nat
  reading : Option Reading
  sending : Option Sending
  /-- whether this station drives the spoil slot of the frame being read (R142, R145) -/
  spoiling : Bool
  /-- whether the CHECK count of that frame asked for a withdrawal, which is taken at the end of the spoil slot (R163) -/
  withdrawAsked : Bool
  /-- the CD pin: whether this station pulls CD low -/
  drive : Bool
  /-- the attempt count and the frame it counts for (R144) -/
  attempts : Nat
  attemptsFor : Option Nat
  deriving DecidableEq, Repr

/-- The Carrier Generator (chapter 4) with the tone table (R70). -/
structure Carrier where
  tones : Table ToneEntry 64
  accumulator : BitVec 32
  frequency : BitVec 32
  amplitude : BitVec 12
  current : Option ToneIndex
  synced : Bool
  /-- the samples of the last clocks, newest first; an unlisted sample is zero (R81) -/
  delayLine : List Int
  /-- the sample port SP[15:0] (R181) -/
  port : BitVec 16
  deriving DecidableEq, Repr

/-- The six tallies (R161), in the order of their kinds 1..6. -/
inductive TallyKind where
  | check
  | spoil
  | drop
  | stray
  | skew
  | disagree
  deriving DecidableEq, Repr

/-- The six counts (R161). -/
structure Tallies where
  check : Nat
  spoil : Nat
  drop : Nat
  stray : Nat
  skew : Nat
  disagree : Nat
  deriving DecidableEq, Repr

/-- Why a return to LISTEN with ALIGN_FAILED is taken (R111); `lead` carries the measured lead. -/
inductive AlignFailure where
  | receiveError
  | cannotRecord
  | noMark
  | lead (clocks : Nat)
  deriving DecidableEq, Repr

/-- How a peer was lost (R123). -/
inductive PeerLoss where
  | left (reason : Cause)
  | silent
  | restarted
  deriving DecidableEq, Repr

/-- How a frame was lost (R155). -/
inductive FrameLoss where
  | spoiled
  | displaced
  | refused
  deriving DecidableEq, Repr

/-- What a notice reports: the 18 kinds of R167 in their order, each with what fills its station, order id and detail
fields. -/
inductive Report where
  | formed (stations : Nat)
  | joined (lead : Nat)
  | live (entry : Option ToneIndex)
  | alignFailed (why : AlignFailure)
  | withdrawn (cause : Cause) (destination : Destination) (rejoinLimit : Bool)
  | peerJoined (peer : StationNo) (group : Option Group)
  | peerLost (peer : StationNo) (how : PeerLoss)
  | profileMismatch (sender : StationNo) (digest : Digest)
  | formationSlow (stations : Nat)
  | epochDisagree (sender : StationNo) (received own : Epoch)
  | orderCommitted (id : OrderId) (target : Epoch)
  | orderFired (id : OrderId) (applied : Bool)
  | orderVetoed (id : OrderId) (claimed : Bool)
  | orderAborted (refuser : StationNo) (id : OrderId) (reason : AbortReason)
  | orphanCommit (id : OrderId) (target : Epoch)
  | frameDropped (how : FrameLoss) (kind : FrameKind) (id : Option OrderId)
  | tallyLimit (kind : TallyKind) (threshold : Nat)
  | skewWide (lead lag : Nat)
  deriving DecidableEq, Repr

/-- A notice record (R166): what it reports and the epoch counter when it was posted, if present. -/
structure Notice where
  report : Report
  epoch : Option Epoch
  deriving DecidableEq, Repr

/-- The Monitor (chapter 10): the tallies, the notice queue, oldest first, and the overflow count. -/
structure Monitor where
  tallies : Tallies
  notices : List Notice
  overflow : Nat
  deriving DecidableEq, Repr

/-- The status of a response (R174). -/
inductive Status where
  | ok
  | busy
  | refused
  | empty
  | badRequest
  deriving DecidableEq, Repr

/-- The refusal reasons (section 11.2), in the order of their codes 1..11. -/
inductive RefusalReason where
  | notMember
  | badArgument
  | late
  | ballotsFull
  | scheduleFull
  | clash
  | noTone
  | queueFull
  | tooLate
  | notHeld
  | noRestTone
  deriving DecidableEq, Repr

/-- The response buffer (R173): the code of the request it answers, its status, its refusal reason if it was refused, and
the bytes of its fields. -/
structure Response where
  code : Byte
  status : Status
  reason : Option RefusalReason
  fields : List Byte
  deriving DecidableEq, Repr

/-- Whether a transaction of the local port runs (R172): none, one whose LSEL fell with RSTN high, or one whose LSEL fell before
RSTN rose, which has no effect. -/
inductive Transaction where
  | closed
  | running
  | void
  deriving DecidableEq, Repr

/-- The serial side of the local port (R172, R173), as the levels of its pins at each reference clock have left it. -/
structure LocalPort where
  transaction : Transaction
  /-- consecutive clocks LSEL has been high since it was last low in the transaction (R172) -/
  high : Nat
  /-- LCLK at the last clock -/
  lclk : Level
  /-- the bits shifted in since the fall of LSEL, first bit first (R172) -/
  shifted : List Bool
  /-- the falls of LCLK since the 00h byte of a read transaction was shifted in (R173) -/
  sent : Nat
  /-- the request of the write transaction that ended at this clock, which is to be taken now (R172) -/
  arrived : Option Instr
  deriving DecidableEq, Repr

/-- The levels of the input pins RSTN, LSEL, LCLK and LDI at one reference clock (R181). -/
structure Pins where
  rstn : Level
  lsel : Level
  lclk : Level
  ldi : Level
  deriving DecidableEq, Repr

/-- The station. `resetPin` is the level of RSTN at the last clock. `inputs` holds the levels of the input pins at the coming
reference clocks, first clock first; past its end the pins rest (`Pins.rest`). It is the model's own field, what the outside
drives (assumption 22). `clock` counts the reference clocks since power-on reset; it is the model's own record, by which the
manual's clock differences are measured (assumption 2). `pending` is the queue of commands that wait, first in, first
out. -/
structure State where
  profile : Profile
  response : Response
  localPort : LocalPort
  orders : OrderEngine
  timer : EpochTimer
  membership : Membership
  queue : TransmitQueue
  bus : BusInterface
  carrier : Carrier
  monitor : Monitor
  resetPin : Level
  inputs : List Pins
  clock : Nat
  pending : List Instr
  deriving DecidableEq, Repr

/-- Reasons a step can stop with a fault. There is none: every command of the station has an effect or leaves the state
as it is, and the manual describes no stop of the part. -/
inductive Fault where
  deriving DecidableEq, Repr

/-- Reasons a step can be refused. -/
inductive Refusal where
  /-- Raised by `exec` for a command whose meaning is not written yet. No command raises it. Safe: nothing is claimed of
  such a command. -/
  | notModelled (mnemonic : String)
  deriving DecidableEq, Repr

/-- The default profile (R176). -/
def Profile.default : Profile where
  epochExp := 12
  markExp := 6
  commitLead := 8
  expected := 1
  slotDivider := 16
  silenceLimit := 8
  skewWindow := 8
  listenFactor := 2
  station := 0
  group := 0
  outputDelay := 0
  threshold := 32
  withdrawMask := 5
  noticeMask := 0x3FFFF
  rejoinLimit := 4

/-- A tone entry that is not valid holds zero in its other fields (R70). -/
def ToneEntry.invalid : ToneEntry := ⟨0, 0, 0, false⟩

/-- An ABSENT entry holds group unknown and silence 0 (R121). -/
def RosterEntry.absent : RosterEntry := ⟨.absent, none, 0⟩

/-- No claim stands. -/
def Claims.none : Claims := ⟨false, false, false⟩

/-- All six tallies at 0. -/
def Tallies.zero : Tallies := ⟨0, 0, 0, 0, 0, 0⟩

/-- The input pins at rest: RSTN and LSEL high, LCLK and LDI low. -/
def Pins.rest : Pins := ⟨.high, .high, .low, .low⟩

/-- The local port with no transaction. -/
def LocalPort.closed : LocalPort := ⟨.closed, 0, .low, [], 0, none⟩

/-- The station as it leaves power-on reset (R180), with no command waiting. -/
def State.reset : State where
  profile := Profile.default
  response := ⟨0, .empty, none, []⟩
  localPort := LocalPort.closed
  orders := ⟨Table.fill 16 none, Table.fill 4 none, 0⟩
  timer := ⟨none, Claims.none, none, none, none, none, none, none⟩
  membership :=
    { state := .idle, listenTimer := 0, cohortSeen := false, mismatch := 0, formation := Table.fill 32 none,
      repeatTimer := 0, slowTimer := 0, slowPosted := false, alignTimer := 0, runningMismatch := 0,
      blindHorizon := none, withdrawals := 0, memberMarks := 0, quiet := 0, leaving := none,
      roster := Table.fill 32 RosterEntry.absent }
  queue := ⟨[], 0⟩
  bus := ⟨0, false, 0, none, none, false, false, false, 0, none⟩
  carrier := ⟨Table.fill 64 ToneEntry.invalid, 0, 0, 0, none, false, [], 0⟩
  monitor := ⟨Tallies.zero, [], 0⟩
  resetPin := .high
  inputs := []
  clock := 0
  pending := []

end Sys2Proof.Machine
end

