-- ==== Sys2Proof/WellFormed.lean ====
section
/-! DEFINITION. Which commands are well formed: the checks that the operand types do not already make. -/

namespace Sys2Proof

/-- A payload that a frame can carry without a format error (R139): a PROPOSE names at least one group, and an ABORT never
carries UNSENT, which has no code. -/
def Payload.WellFormed : Payload → Bool
  | .propose _ _ mask _ _ => mask != 0
  | .abort _ _ reason _ => reason != .unsent
  | _ => true

/-- The accepted frame a command reports, if it reports one: its sender and its payload. -/
def Instr.acceptedFrame : Instr → Option (StationNo × Payload)
  | .proposeAccepted sender seq target mask tone mode => some (sender, .propose seq target mask tone mode)
  | .voteAccepted voter origin seq verdict => some (voter, .vote origin seq verdict)
  | .commitAccepted sender seq target => some (sender, .commit seq target)
  | .abortAccepted sender seq target reason refuser => some (sender, .abort seq target reason refuser)
  | .epochAccepted sender mark horizon digest => some (sender, .epoch mark horizon digest)
  | .helloAccepted sender state group digest => some (sender, .hello state group digest)
  | .leaveAccepted sender reason => some (sender, .leave reason)
  | _ => none

/-- A well-formed command: an accepted frame passed the format test (R139, R145), and the code of a rejected write
transaction is not 00h, which names a read transaction (R172). -/
def Instr.WellFormed (i : Instr) : Bool :=
  (match i with
    | .badRequest code => code != 0
    | _ => true) &&
  (match i.acceptedFrame with
    | some (_, p) => p.WellFormed
    | none => true)

end Sys2Proof
end

