-- ==== Sys2Proof/Machine/Frames.lean ====
section
/-! DEFINITION. Frames of the Cohort Bus as slots: codes, layout, check value and format (sections 8.1 and 8.2). A slot is
a `Bool`: false is dominant, a zero; true is recessive, a one. -/

namespace Sys2Proof.Machine

/-- The kind code of a frame (section 8.2). -/
def kindCode : FrameKind → Nat
  | .abort => 1
  | .commit => 2
  | .vote => 3
  | .propose => 4
  | .epoch => 5
  | .hello => 6
  | .leave => 7

/-- The kind of a payload. -/
def payloadKind : Payload → FrameKind
  | .abort .. => .abort
  | .commit .. => .commit
  | .vote .. => .vote
  | .propose .. => .propose
  | .epoch .. => .epoch
  | .hello .. => .hello
  | .leave .. => .leave

/-- The payload length of a kind in bytes (section 8.2). -/
def kindLength : FrameKind → Nat
  | .abort => 5
  | .commit => 3
  | .vote => 3
  | .propose => 6
  | .epoch => 6
  | .hello => 4
  | .leave => 1

/-- Codes of the refusal grounds, 1..6 (section 8.2). -/
def groundCode : Ground → Nat
  | .stranger => 1
  | .dupId => 2
  | .late => 3
  | .noTone => 4
  | .clash => 5
  | .full => 6

/-- Codes of the verdicts, 0..6 (section 8.2). -/
def verdictCode : Verdict → Nat
  | .accept => 0
  | .refuse g => groundCode g

/-- Codes of the ABORT reasons, 1..10 (section 8.2); UNSENT has 11 in notices alone (section 11.2). -/
def abortReasonCode : AbortReason → Nat
  | .refused g => groundCode g
  | .timeout => 7
  | .withdrawn => 8
  | .commitLost => 9
  | .originLeaving => 10
  | .unsent => 11

/-- Codes of the phase modes (section 8.2). -/
def phaseModeCode : PhaseMode → Nat
  | .restart => 1
  | .continued => 2

/-- Codes of the HELLO states (section 8.2). -/
def helloStateCode : HelloState → Nat
  | .forming => 1
  | .arriving => 2
  | .member => 3

/-- Codes of the LEAVE reasons and withdrawal causes (sections 8.2 and 11.2). -/
def causeCode : Cause → Nat
  | .holdFault => 1
  | .tally => 2
  | .duplicate => 3
  | .stop => 4

/-- The ground a code names. -/
def groundOf : Nat → Option Ground
  | 1 => some .stranger
  | 2 => some .dupId
  | 3 => some .late
  | 4 => some .noTone
  | 5 => some .clash
  | 6 => some .full
  | _ => none

/-- The verdict a code names (R139: a code above 6 is a format error). -/
def verdictOf : Nat → Option Verdict
  | 0 => some .accept
  | n => (groundOf n).map .refuse

/-- The ABORT reason a code names (R139: 0 and codes above 10 are format errors). -/
def abortReasonOf : Nat → Option AbortReason
  | 7 => some .timeout
  | 8 => some .withdrawn
  | 9 => some .commitLost
  | 10 => some .originLeaving
  | n => (groundOf n).map .refused

/-- The phase mode a code names (R139). -/
def phaseModeOf : Nat → Option PhaseMode
  | 1 => some .restart
  | 2 => some .continued
  | _ => none

/-- The HELLO state a code names (R139). -/
def helloStateOf : Nat → Option HelloState
  | 1 => some .forming
  | 2 => some .arriving
  | 3 => some .member
  | _ => none

/-- The LEAVE reason a code names (R139). -/
def causeOf : Nat → Option Cause
  | 1 => some .holdFault
  | 2 => some .tally
  | 3 => some .duplicate
  | 4 => some .stop
  | _ => none

/-- The frame kind a code names; KIND 0 is a format error (R139). -/
def kindOf : Nat → Option FrameKind
  | 1 => some .abort
  | 2 => some .commit
  | 3 => some .vote
  | 4 => some .propose
  | 5 => some .epoch
  | 6 => some .hello
  | 7 => some .leave
  | _ => none

/-- The number below `bound` that `n` is, if it is. -/
def below (bound n : Nat) : Option (Fin bound) := if h : n < bound then some ⟨n, h⟩ else none

/-- The `width` bits of a number, most significant bit first (R136). -/
def bitsOf (width n : Nat) : List Bool := (List.range width).reverse.map n.testBit

/-- The number a row of bits spells, most significant bit first. -/
def natOf (bits : List Bool) : Nat := bits.foldl (fun acc b => 2 * acc + b.toNat) 0

/-- The bytes of a 16-bit field, most significant byte first (section 8.2). -/
def bytesOf16 (x : BitVec 16) : List Nat := [x.toNat / 256, x.toNat % 256]

/-- A 16-bit field from its two bytes. -/
def word16 (high low : Nat) : BitVec 16 := BitVec.ofNat 16 (256 * high + low)

/-- The payload bytes of a frame in the order of the frame layout table (section 8.2). -/
def payloadBytes : Payload → List Nat
  | .abort seq target reason refuser =>
      [seq.toNat] ++ bytesOf16 target ++ [abortReasonCode reason, refuser.val]
  | .commit seq target => [seq.toNat] ++ bytesOf16 target
  | .vote origin seq verdict => [origin.val, seq.toNat, verdictCode verdict]
  | .propose seq target mask tone mode =>
      [seq.toNat] ++ bytesOf16 target ++ [mask.toNat, tone.val, phaseModeCode mode]
  | .epoch mark horizon digest => bytesOf16 mark ++ bytesOf16 horizon ++ bytesOf16 digest
  | .hello state group digest => [helloStateCode state, group.val] ++ bytesOf16 digest
  | .leave reason => [causeCode reason]

/-- The payload that bytes of a kind spell, or none for a format error (R139). -/
def payloadOf : FrameKind → List Nat → Option Payload
  | .abort, [seq, t1, t0, reason, refuser] => do
      let r ← abortReasonOf reason
      let f ← below 32 refuser
      some (.abort (BitVec.ofNat 8 seq) (word16 t1 t0) r f)
  | .commit, [seq, t1, t0] => some (.commit (BitVec.ofNat 8 seq) (word16 t1 t0))
  | .vote, [origin, seq, verdict] => do
      let o ← below 32 origin
      let v ← verdictOf verdict
      some (.vote o (BitVec.ofNat 8 seq) v)
  | .propose, [seq, t1, t0, mask, tone, mode] => do
      let i ← below 64 tone
      let m ← phaseModeOf mode
      if mask = 0 then none else some (.propose (BitVec.ofNat 8 seq) (word16 t1 t0) (BitVec.ofNat 8 mask) i m)
  | .epoch, [m1, m0, h1, h0, d1, d0] => some (.epoch (word16 m1 m0) (word16 h1 h0) (word16 d1 d0))
  | .hello, [state, group, d1, d0] => do
      let s ← helloStateOf state
      let g ← below 8 group
      some (.hello s g (word16 d1 d0))
  | .leave, [reason] => (causeOf reason).map .leave
  | _, _ => none

/-- One bit into the check register (R138). -/
def checkStep (register : BitVec 16) (bit : Bool) : BitVec 16 :=
  if register.msb != bit then (register <<< 1) ^^^ Config.checkGenerator else register <<< 1

/-- The check value over a row of bits (R138). -/
def checkValue (bits : List Bool) : BitVec 16 := bits.foldl checkStep Config.checkStart

/-- KIND through PAYLOAD of a frame (section 8.2). -/
def frameBody (station : StationNo) (p : Payload) : List Bool :=
  bitsOf 3 (kindCode (payloadKind p)) ++ bitsOf 5 station.val ++ bitsOf 4 (kindLength (payloadKind p)) ++
    (payloadBytes p).flatMap (bitsOf 8)

/-- The slots a sender drives from START through CHECK (section 8.2, R138). -/
def frameSlots (station : StationNo) (p : Payload) : List Bool :=
  false :: frameBody station p ++ bitsOf 16 (checkValue (frameBody station p)).toNat

/-- The number that `width` slots spell, from slot `first` on. -/
def slotField (slots : List Bool) (first width : Nat) : Nat := natOf ((slots.drop first).take width)

/-- The payload length a frame carries, once its LENGTH has been read (R136). -/
def lengthRead (slots : List Bool) : Option Nat := if slots.length < 13 then none else some (slotField slots 9 4)

/-- The place of the spoil slot in the frame as read (R136). -/
def spoilPlace (slots : List Bool) : Option Nat := (lengthRead slots).map fun n => 29 + 8 * n

/-- Whether the last CHECK slot has been read (R145). -/
def checkRead (slots : List Bool) : Bool := (spoilPlace slots).any (· ≤ slots.length)

/-- What the spoil slot read, once it has been read: true is recessive. -/
def spoilRead (slots : List Bool) : Option Bool := (spoilPlace slots).bind fun n => slots[n]?

/-- Whether all slots of the frame, through its four END slots, have been read (R136). -/
def framingDone (slots : List Bool) : Bool :=
  (spoilPlace slots).any fun n => n + 1 + Config.endSlots ≤ slots.length

/-- The sender and payload of the frame as read, or none for a format error (R139). -/
def frameRead (slots : List Bool) : Option (StationNo × Payload) := do
  let n ← lengthRead slots
  let kind ← kindOf (slotField slots 1 3)
  let station ← below 32 (slotField slots 4 5)
  if n = kindLength kind then
    let p ← payloadOf kind ((List.range n).map fun i => slotField slots (13 + 8 * i) 8)
    some (station, p)
  else none

/-- Whether the check of the frame as read is good (R138). -/
def checkGood (slots : List Bool) : Bool :=
  (lengthRead slots).any fun n =>
    slotField slots (13 + 8 * n) 16 == (checkValue ((slots.drop 1).take (12 + 8 * n))).toNat

/-- A station's own test of a frame: its check is good and it has no format error (R145). -/
def ownTest (slots : List Bool) : Bool := checkGood slots && (frameRead slots).isSome

/-- The first place at which two rows of slots differ, counted on from `at_`, with the value of the second row there. -/
def firstDifference (at_ : Nat) : List Bool → List Bool → Option (Nat × Bool)
  | a :: as, b :: bs => if a = b then firstDifference (at_ + 1) as bs else some (at_, b)
  | _, _ => none

/-- What a sender finds when it reads back the slots it drives (R141, R142). -/
inductive ReadBack where
  | agrees
  | lost
  | mismatch
  deriving DecidableEq, Repr

/-- Read back: a dominant slot where the sender drove recessive in KIND or STATION is a lost arbitration, any other
difference through CHECK a mismatch (R141, R142). -/
def readBack (driven slots : List Bool) : ReadBack :=
  match firstDifference 0 driven slots with
  | none => .agrees
  | some (place, value) => if 1 ≤ place && place ≤ 8 && !value then .lost else .mismatch

end Sys2Proof.Machine
end

