-- ==== Sys2Proof/Machine/Operands.lean ====
section
/-! DEFINITION. How the values that commands and rules name are computed: epoch arithmetic, the named points of the epoch
phase, sets of stations, the profile's ranges and digest, and look-ups in the tables. -/

namespace Sys2Proof.Machine

/-- The distance from epoch `x` to epoch `y` (00_scope, Epoch Arithmetic). -/
def epochDistance (x y : Epoch) : Nat := (y - x).toNat

/-- Whether epoch `y` is ahead of epoch `x` (00_scope, Epoch Arithmetic). -/
def aheadOf (x y : Epoch) : Bool := decide (1 ≤ epochDistance x y) && decide (epochDistance x y ≤ 32767)

/-- L, the reference clocks of an epoch. -/
def epochLength (p : Profile) : Nat := 2 ^ p.epochExp
/-- M, the epochs of a mark interval. -/
def markInterval (p : Profile) : Nat := 2 ^ p.markExp
/-- The listen span K·M·L. -/
def listenSpan (p : Profile) : Nat := p.listenFactor * markInterval p * epochLength p
/-- The mark release point L/2. -/
def releasePhase (p : Profile) : Nat := epochLength p / 2
/-- The veto point 5L/8. -/
def vetoPhase (p : Profile) : Nat := 5 * epochLength p / 8
/-- The veto sample 3L/4. -/
def samplePhase (p : Profile) : Nat := 3 * epochLength p / 4
/-- The veto release 7L/8. -/
def vetoReleasePhase (p : Profile) : Nat := 7 * epochLength p / 8
/-- The longest lead and lag, L/8 (R43, R44). -/
def eighth (p : Profile) : Nat := epochLength p / 8

/-- Whether an epoch is a mark epoch (00_scope, Mark Interval). -/
def isMarkEpoch (p : Profile) (e : Epoch) : Bool := e.toNat % markInterval p == 0

/-- The mark epoch e' with the given epoch in e'..e' + M − 1 (R105). -/
def currentMark (p : Profile) (e : Epoch) : Epoch := BitVec.ofNat 16 (e.toNat - e.toNat % markInterval p)

/-- Whether a group is in a group mask. -/
def inMask (mask : GroupMask) (g : Group) : Bool := mask.getLsbD g.val

/-- Whether a station is in a set. -/
def inSet (set : StationSet) (n : StationNo) : Bool := set.getLsbD n.val
/-- The set that holds one station. -/
def single (n : StationNo) : StationSet := BitVec.twoPow 32 n.val
/-- A set with a station added. -/
def addTo (set : StationSet) (n : StationNo) : StationSet := set ||| single n
/-- A set with a station removed. -/
def removeFrom (set : StationSet) (n : StationNo) : StationSet := set &&& ~~~ single n
/-- Whether every member of the first set is in the second. -/
def subset (a b : StationSet) : Bool := a &&& b == a

/-- All station numbers, lowest first. -/
def allStations : List StationNo := List.finRange 32

/-- The set of the stations that `p` picks out. -/
def setWhere (p : StationNo → Bool) : StationSet :=
  allStations.foldl (fun set n => if p n then addTo set n else set) 0

/-- The number of stations in the formation set. -/
def formationSize (f : Table (Option Group) 32) : Nat := f.held.length

/-- Whether the value of a parameter is in its range (R176); false for an id that names no parameter. -/
def parameterInRange (id value : Nat) : Bool :=
  match id with
  | 1 => decide (8 ≤ value ∧ value ≤ 16)
  | 2 => decide (2 ≤ value ∧ value ≤ 10)
  | 3 => decide (2 ≤ value ∧ value ≤ 64)
  | 4 => decide (1 ≤ value ∧ value ≤ 32)
  | 5 => decide (8 ≤ value ∧ value ≤ 255)
  | 6 => decide (4 ≤ value ∧ value ≤ 32 ∧ value % 2 = 0)
  | 7 => decide (value ≤ 63)
  | 8 => decide (2 ≤ value ∧ value ≤ 8)
  | 9 => decide (value ≤ 31)
  | 10 => decide (value ≤ 7)
  | 11 => decide (value ≤ 255)
  | 12 => decide (1 ≤ value ∧ value ≤ 255)
  | 13 => decide (value ≤ 63)
  | 14 => decide (value ≤ 0x3FFFF)
  | 15 => decide (value ≤ 15)
  | _ => false

/-- The profile with one parameter set to a value in its range (R176, R177). -/
def setParameter (p : Profile) (id value : Nat) : Profile :=
  match id with
  | 1 => { p with epochExp := value }
  | 2 => { p with markExp := value }
  | 3 => { p with commitLead := value }
  | 4 => { p with expected := value }
  | 5 => { p with slotDivider := value }
  | 6 => { p with silenceLimit := value }
  | 7 => { p with skewWindow := value }
  | 8 => { p with listenFactor := value }
  | 9 => { p with station := Fin.ofNat 32 value }
  | 10 => { p with group := Fin.ofNat 8 value }
  | 11 => { p with outputDelay := value }
  | 12 => { p with threshold := value }
  | 13 => { p with withdrawMask := BitVec.ofNat 6 value }
  | 14 => { p with noticeMask := BitVec.ofNat 18 value }
  | 15 => { p with rejoinLimit := value }
  | _ => p

/-- The profile digest: the check register over the eight cohort parameters, one byte each (R178). -/
def digestOf (p : Profile) : Digest :=
  checkValue (([p.epochExp, p.markExp, p.commitLead, p.expected, p.slotDivider, p.silenceLimit, p.skewWindow,
    p.listenFactor] : List Nat).flatMap (bitsOf 8))

/-- This station's own number. -/
def ownNumber (s : State) : StationNo := s.profile.station

/-- The order id of an own order. -/
def ownId (s : State) (seq : Seq) : OrderId := ⟨ownNumber s, seq⟩

/-- Whether a received digest matches the station's own (R84). -/
def digestMatches (s : State) (d : Digest) : Bool := d == digestOf s.profile

/-- The orders in the Schedule, lowest slot first. -/
def liveOrders (s : State) : List Order := s.orders.schedule.held

/-- The order held under an id (R3). -/
def orderWithId (s : State) (id : OrderId) : Option Order := (liveOrders s).find? fun o => o.id == id

/-- The order held for a target (R3). -/
def orderWithTarget (s : State) (t : Epoch) : Option Order := (liveOrders s).find? fun o => o.target == t

/-- The open ballots, lowest slot first. -/
def openBallots (s : State) : List Ballot := s.orders.ballots.held

/-- The open ballot of an own order (R7). -/
def ballotWithSeq (s : State) (seq : Seq) : Option Ballot := (openBallots s).find? fun b => b.seq == seq

/-- The tone entry at an index (R70). -/
def toneAt (s : State) (i : ToneIndex) : ToneEntry := s.carrier.tones.get i

/-- Whether the order would name this station's group with a tone entry it does not hold (the NO_TONE check of R6 and
R17). -/
def lacksTone (s : State) (mask : GroupMask) (i : ToneIndex) : Bool :=
  inMask mask s.profile.group && !(toneAt s i).valid

/-- Whether a lead is in C + 2..32767 (R6, R17). -/
def leadAccepted (s : State) (now target : Epoch) : Bool :=
  decide (s.profile.commitLead + 2 ≤ epochDistance now target) && decide (epochDistance now target ≤ 32767)

/-- The Roster entry of a station. -/
def rosterEntry (s : State) (n : StationNo) : RosterEntry := s.membership.roster.get n

/-- An entry is present when its presence is ARRIVING or MEMBER (R121). -/
def isPresent (e : RosterEntry) : Bool := e.presence != .absent

/-- The order id a frame refers to (R151). -/
def frameOrderId (own : StationNo) : Payload → Option OrderId
  | .abort seq .. => some ⟨own, seq⟩
  | .commit seq _ => some ⟨own, seq⟩
  | .propose seq .. => some ⟨own, seq⟩
  | .vote origin seq _ => some ⟨origin, seq⟩
  | _ => none

/-- Whether a held frame is in transmission (R151). -/
def inTransmission (s : State) (e : QueueEntry) : Bool :=
  s.bus.sending.any fun a => a.ident == e.ident && !a.displaced

/-- Whether the COMMIT of an order is on the bus, displaced or not (R12, R14, R26). -/
def commitOnBus (s : State) (seq : Seq) (target : Epoch) : Bool :=
  s.bus.sending.any fun a => a.payload == .commit seq target

/-- Whether the PROPOSE of an order is on the bus, displaced or not (R12). -/
def proposeOnBus (s : State) (seq : Seq) (target : Epoch) : Bool :=
  s.bus.sending.any fun a => match a.payload with
    | .propose q t .. => q == seq && t == target
    | _ => false

/-- The mark epoch and horizon of the EPOCH frame begun now (R103): the farthest ahead of the counter among the live
targets and the blind horizon, or the mark epoch itself. -/
def horizonNow (s : State) (mark : Epoch) : Epoch :=
  match s.timer.grid with
  | none => mark
  | some g =>
    let candidates := ((liveOrders s).map (·.target) ++ s.membership.blindHorizon.toList).filter (aheadOf g.counter)
    match candidates with
    | [] => mark
    | c :: rest =>
      rest.foldl (fun best t => if epochDistance g.counter best < epochDistance g.counter t then t else best) c

end Sys2Proof.Machine
end

