-- ==== Sys2Proof/Machine/Flags.lean ====
section
/-! DEFINITION. Values that follow from the state at every moment: the output state, the pins that are levels of state,
and the byte layouts in which the local port reports the state (section 11.2). -/

namespace Sys2Proof.Machine

/-- The output state (R80). -/
inductive OutputState where
  | blank
  | quiet
  | live
  deriving DecidableEq, Repr

/-- The output state follows the station state and the synced flag (R80). -/
def outputOf (state : StationState) (synced : Bool) : OutputState :=
  if state = .member then (if synced then .live else .quiet) else .blank

/-- The present output state (R80). -/
def outputState (s : State) : OutputState := outputOf s.membership.state s.carrier.synced

/-- Whether the station pulls CH low: while it holds a claim (R33). -/
def pullsHold (s : State) : Bool := s.timer.claims.formation || s.timer.claims.mark || s.timer.claims.veto

/-- Whether the station pulls CD low. -/
def pullsData (s : State) : Bool := s.bus.drive

/-- The levels of the input pins at the coming reference clock. -/
def pinsNow (s : State) : Pins := s.inputs.head?.getD Pins.rest

/-- Whether ATTN is low: while the notice queue is not empty (R170). -/
def attnLow (s : State) : Bool := !s.monitor.notices.isEmpty

/-- Whether the bus is idle (R137). -/
def busIdle (s : State) : Bool := s.bus.idleCount == Config.idleSlots

/-- Active receiving: FORMING, ARRIVING, MEMBER (R86). These are also the states in which tallies count (R161). -/
def activeState : StationState → Bool
  | .forming => true
  | .arriving => true
  | .member => true
  | _ => false

/-- ARRIVING or MEMBER: the states with an epoch counter (R29). -/
def gridState : StationState → Bool
  | .arriving => true
  | .member => true
  | _ => false

/-- ALIGNING, ARRIVING or MEMBER: the states that record orders and update the Roster (R87, R122). -/
def recordingState : StationState → Bool
  | .aligning => true
  | .arriving => true
  | .member => true
  | _ => false

/-- A number as `count` bytes, most significant byte first. -/
def portBytes (count n : Nat) : List Byte := (List.range count).reverse.map fun i => BitVec.ofNat 8 (n / 256 ^ i)

/-- A yes or no as a byte. -/
def flagByte (b : Bool) : Byte := if b then 1 else 0

/-- Codes of the station states (R175). -/
def stateCode : StationState → Byte
  | .idle => 0
  | .listen => 1
  | .forming => 2
  | .aligning => 3
  | .arriving => 4
  | .member => 5
  | .leaving => 6

/-- Codes of the output states (R175). -/
def outputCode : OutputState → Byte
  | .blank => 0
  | .quiet => 1
  | .live => 2

/-- A group or FFh for unknown (section 11.2). -/
def groupByte : Option Group → Byte
  | some g => BitVec.ofNat 8 g.val
  | none => 0xFF

/-- A tone entry index or FFh for absent (R175). -/
def entryByte : Option ToneIndex → Byte
  | some i => BitVec.ofNat 8 i.val
  | none => 0xFF

/-- Byte 5 of READ_STATUS: which of the epoch counter, the last mark reading and the blind horizon are present. -/
def presentByte (s : State) : Byte :=
  (if s.timer.grid.isSome then 1 else 0) + (if s.timer.lastReading.isSome then 2 else 0) +
    (if s.membership.blindHorizon.isSome then 4 else 0)

/-- Byte 10 of READ_STATUS: the claims standing. -/
def claimsByte (c : Claims) : Byte :=
  (if c.formation then 1 else 0) + (if c.mark then 2 else 0) + (if c.veto then 4 else 0)

/-- The 27 bytes of READ_STATUS (R175). -/
def statusBytes (s : State) : List Byte :=
  [stateCode s.membership.state, BitVec.ofNat 8 (ownNumber s).val, BitVec.ofNat 8 s.profile.group.val] ++
  portBytes 2 (digestOf s.profile).toNat ++
  [presentByte s] ++
  portBytes 2 ((s.timer.grid.map fun g => g.counter.toNat).getD 0) ++
  portBytes 2 ((s.timer.grid.map fun g => g.phase).getD 0) ++
  [claimsByte s.timer.claims] ++
  portBytes 2 ((s.timer.lastReading.map fun r => r.mark.toNat).getD 0) ++
  portBytes 2 ((s.timer.lastReading.map fun r => r.lead).getD 0) ++
  portBytes 2 ((s.timer.lastReading.map fun r => r.lag).getD 0) ++
  portBytes 2 ((s.membership.blindHorizon.map fun h => h.toNat).getD 0) ++
  [outputCode (outputState s), flagByte s.carrier.synced, entryByte s.carrier.current,
   BitVec.ofNat 8 s.membership.withdrawals, BitVec.ofNat 8 s.queue.entries.length,
   flagByte (s.queue.entries.any (inTransmission s)), BitVec.ofNat 8 s.monitor.notices.length,
   BitVec.ofNat 8 (if s.membership.state = .forming then formationSize s.membership.formation else 0)]

/-- Codes of the presences (section 11.2). -/
def presenceCode : Presence → Byte
  | .absent => 0
  | .arriving => 1
  | .member => 2

/-- The 96 bytes of READ_ROSTER: presence, group and silence of each station, station 0 first (R134). -/
def rosterBytes (s : State) : List Byte :=
  s.membership.roster.items.flatMap fun e => [presenceCode e.presence, groupByte e.group, BitVec.ofNat 8 e.silence]

/-- Codes of the vote field (section 11.2). -/
def voteCode : VoteField → Byte
  | .none => 0
  | .accepted => 1
  | .unsent => 2

/-- Codes of the ballot states (section 11.2). -/
def ballotStateCode : BallotState → Byte
  | .awaitingSend => 0
  | .collecting => 1
  | .committing => 2

/-- The fields of READ_ORDER (R28, section 11.2). -/
def orderBytes (o : Order) : List Byte :=
  [BitVec.ofNat 8 o.id.origin.val, o.id.seq] ++ portBytes 2 o.target.toNat ++
  [o.mask, BitVec.ofNat 8 o.tone.val, BitVec.ofNat 8 (phaseModeCode o.mode), flagByte (o.state == .ready),
   voteCode o.vote, flagByte o.vetoRequest, flagByte o.armed]

/-- The fields of READ_BALLOT (R28, section 11.2). -/
def ballotBytes (b : Ballot) : List Byte :=
  [b.seq] ++ portBytes 2 b.target.toNat ++ [ballotStateCode b.state] ++ portBytes 4 b.electorate.toNat ++
    portBytes 4 b.accepted.toNat

/-- The fields of READ_TALLIES (R165, section 11.2). -/
def tallyBytes (m : Monitor) : List Byte :=
  [m.tallies.check, m.tallies.spoil, m.tallies.drop, m.tallies.stray, m.tallies.skew, m.tallies.disagree,
    m.overflow].map (BitVec.ofNat 8)

/-- Codes of the notice kinds, 1..18 in the order of R167. -/
def reportCode : Report → Nat
  | .formed .. => 1
  | .joined .. => 2
  | .live .. => 3
  | .alignFailed .. => 4
  | .withdrawn .. => 5
  | .peerJoined .. => 6
  | .peerLost .. => 7
  | .profileMismatch .. => 8
  | .formationSlow .. => 9
  | .epochDisagree .. => 10
  | .orderCommitted .. => 11
  | .orderFired .. => 12
  | .orderVetoed .. => 13
  | .orderAborted .. => 14
  | .orphanCommit .. => 15
  | .frameDropped .. => 16
  | .tallyLimit .. => 17
  | .skewWide .. => 18

/-- The station field of a notice (R167). -/
def reportStation : Report → Option StationNo
  | .peerJoined peer _ => some peer
  | .peerLost peer _ => some peer
  | .profileMismatch sender _ => some sender
  | .epochDisagree sender _ _ => some sender
  | .orderCommitted id _ => some id.origin
  | .orderFired id _ => some id.origin
  | .orderVetoed id _ => some id.origin
  | .orderAborted refuser _ _ => some refuser
  | .orphanCommit id _ => some id.origin
  | _ => none

/-- The order id field of a notice (R167). -/
def reportOrder : Report → Option OrderId
  | .orderCommitted id _ => some id
  | .orderFired id _ => some id
  | .orderVetoed id _ => some id
  | .orderAborted _ id _ => some id
  | .orphanCommit id _ => some id
  | .frameDropped _ _ id => id
  | _ => none

/-- Codes of the tally kinds, 1..6 (section 11.2). -/
def tallyCode : TallyKind → Nat
  | .check => 1
  | .spoil => 2
  | .drop => 3
  | .stray => 4
  | .skew => 5
  | .disagree => 6

/-- Codes of the withdrawal destinations (section 11.2). -/
def destinationCode : Destination → Byte
  | .listen => 1
  | .idle => 2

/-- Codes of the causes of a lost frame (section 11.2). -/
def frameLossCode : FrameLoss → Byte
  | .spoiled => 1
  | .displaced => 2
  | .refused => 3

/-- The items of a notice's detail in their order (R167, section 11.2). -/
def reportDetail : Report → List Byte
  | .formed n => [BitVec.ofNat 8 n]
  | .joined lead => portBytes 2 lead
  | .live entry => [entryByte entry]
  | .alignFailed .receiveError => [1]
  | .alignFailed .cannotRecord => [2]
  | .alignFailed .noMark => [3]
  | .alignFailed (.lead clocks) => [4] ++ portBytes 2 clocks
  | .withdrawn cause destination limit =>
      [BitVec.ofNat 8 (causeCode cause), destinationCode destination] ++ (if limit then [1] else [])
  | .peerJoined _ group => [groupByte group]
  | .peerLost _ (.left reason) => [1, BitVec.ofNat 8 (causeCode reason)]
  | .peerLost _ .silent => [2]
  | .peerLost _ .restarted => [3]
  | .profileMismatch _ digest => portBytes 2 digest.toNat
  | .formationSlow n => [BitVec.ofNat 8 n]
  | .epochDisagree _ received own => portBytes 2 received.toNat ++ portBytes 2 own.toNat
  | .orderCommitted _ target => portBytes 2 target.toNat
  | .orderFired _ applied => [if applied then 1 else 2]
  | .orderVetoed _ claimed => [if claimed then 1 else 2]
  | .orderAborted _ _ reason => [BitVec.ofNat 8 (abortReasonCode reason)]
  | .orphanCommit _ target => portBytes 2 target.toNat
  | .frameDropped how kind _ => [frameLossCode how, BitVec.ofNat 8 (kindCode kind)]
  | .tallyLimit kind threshold => [BitVec.ofNat 8 (tallyCode kind), BitVec.ofNat 8 threshold]
  | .skewWide lead lag => portBytes 2 lead ++ portBytes 2 lag

/-- The present-fields byte of a notice (section 11.2). -/
def noticePresent (n : Notice) : Byte :=
  (if n.epoch.isSome then 1 else 0) + (if (reportStation n.report).isSome then 2 else 0) +
    (if (reportOrder n.report).isSome then 4 else 0)

/-- The fields of TAKE_NOTICE (R169, section 11.2). -/
def noticeBytes (n : Notice) : List Byte :=
  [BitVec.ofNat 8 (reportCode n.report), noticePresent n] ++
  portBytes 2 ((n.epoch.map fun e => e.toNat).getD 0) ++
  [BitVec.ofNat 8 (((reportStation n.report).map fun st => st.val).getD 0),
   BitVec.ofNat 8 (((reportOrder n.report).map fun id => id.origin.val).getD 0),
   ((reportOrder n.report).map fun id => id.seq).getD 0] ++
  (reportDetail n.report ++ [0, 0, 0, 0]).take 4

/-- Codes of the statuses (R174). -/
def statusCode : Status → Byte
  | .ok => 0
  | .busy => 1
  | .refused => 2
  | .empty => 3
  | .badRequest => 4

/-- Codes of the refusal reasons, 1..11 (section 11.2). -/
def refusalCode : RefusalReason → Byte
  | .notMember => 1
  | .badArgument => 2
  | .late => 3
  | .ballotsFull => 4
  | .scheduleFull => 5
  | .clash => 6
  | .noTone => 7
  | .queueFull => 8
  | .tooLate => 9
  | .notHeld => 10
  | .noRestTone => 11

/-- The bytes of a response: request code, status, reason, fields (section 11.2). -/
def responseBytes (r : Response) : List Byte :=
  [r.code, statusCode r.status, (r.reason.map refusalCode).getD 0] ++ r.fields

/-- What a read transaction returns on LDO: a count byte, the response bytes, and 00h for every byte clocked beyond them
(R173). It changes no state. -/
def readTransaction (s : State) (clocked : Nat) : List Byte :=
  (BitVec.ofNat 8 (responseBytes s.response).length :: responseBytes s.response ++
    List.replicate clocked 0).take clocked

/-- Whether the first byte of a transaction has been shifted in and names a read transaction (R172, R173). -/
def isReadTransaction (shifted : List Bool) : Bool := (shiftedBytes shifted).head? == some 0

/-- Bit `k` of what a read transaction puts out (R173). DESIGN CHOICE: most significant bit of each byte first, as R172 has it
for LDI (assumption 39). -/
def readBit (s : State) (k : Nat) : Bool := ((readTransaction s (k / 8 + 1)).getD (k / 8) 0).getMsbD (k % 8)

/-- The pin LDO: driven only while LSEL is low in a read transaction, from the first fall of LCLK after its 00h byte; `none` is
released (R173, R180, R181). The order of the bits in a byte is `readBit`'s choice (assumption 39). -/
def ldoPin (s : State) : Option Level :=
  if s.resetPin = .high ∧ s.localPort.transaction = .running ∧ s.localPort.high = 0 ∧
      isReadTransaction s.localPort.shifted = true ∧ 0 < s.localPort.sent then
    some (if readBit s (s.localPort.sent - 1) then .high else .low)
  else none

end Sys2Proof.Machine
end

