-- ==== Sys2Proof/Machine/Ops.lean ====
section
/-! DEFINITION. The shared operations on the Monitor, the response buffer, the carrier, the queue's contents and the
station state: posting notices, counting tallies, purging frames, carrier reset, and entry to LISTEN and IDLE. -/

namespace Sys2Proof.Machine

/-- The Monitor after a notice is posted: discarded if its kind is not enabled, queued if there is room, counted as
overflow otherwise (R168). -/
def postNotice (mask : BitVec 18) (n : Notice) (m : Monitor) : Monitor :=
  if mask.getLsbD (reportCode n.report - 1) then
    if m.notices.length < Config.noticePlaces then { m with notices := m.notices ++ [n] }
    else { m with overflow := min (m.overflow + 1) Config.tallyTop }
  else m

/-- Post a notice; the Monitor fills its epoch field from the Epoch Timer (R166). -/
def post (r : Report) (s : State) : State :=
  { s with monitor := postNotice s.profile.noticeMask ⟨r, s.timer.grid.map (·.counter)⟩ s.monitor }

/-- The count of a tally kind. -/
def tallyOf (k : TallyKind) (t : Tallies) : Nat :=
  match k with
  | .check => t.check
  | .spoil => t.spoil
  | .drop => t.drop
  | .stray => t.stray
  | .skew => t.skew
  | .disagree => t.disagree

/-- The tallies with the count of one kind replaced. -/
def setTally (k : TallyKind) (n : Nat) (t : Tallies) : Tallies :=
  match k with
  | .check => { t with check := n }
  | .spoil => { t with spoil := n }
  | .drop => { t with drop := n }
  | .stray => { t with stray := n }
  | .skew => { t with skew := n }
  | .disagree => { t with disagree := n }

/-- Count a tally if the station is FORMING, ARRIVING or MEMBER (R161), with TALLY_LIMIT when it becomes equal to the
threshold; the second part says whether the Monitor asks for a withdrawal (R162), which the caller takes at the moment
R163 states. -/
def countTally (k : TallyKind) (s : State) : State × Bool :=
  let old := tallyOf k s.monitor.tallies
  if activeState s.membership.state && decide (old < Config.tallyTop) then
    let counted := { s with monitor := { s.monitor with tallies := setTally k (old + 1) s.monitor.tallies } }
    if old + 1 = s.profile.threshold then
      (post (.tallyLimit k s.profile.threshold) counted, s.profile.withdrawMask.getLsbD (tallyCode k - 1))
    else (counted, false)
  else (s, false)

/-- Place a response in the response buffer (R172). -/
def respond (code : Byte) (status : Status) (fields : List Byte) (s : State) : State :=
  { s with response := ⟨code, status, none, fields⟩ }

/-- Place a REFUSED response with its reason in the response buffer (R174). -/
def refuseRequest (code : Byte) (reason : RefusalReason) (s : State) : State :=
  { s with response := ⟨code, .refused, some reason, []⟩ }

/-- Whether a request can be taken: RSTN is high (R180), and if a transaction has ended at this clock, the request is the one it
carried (R172). A request can also be given whole, without its bits (assumption 22). -/
def takesRequest (c : Instr) (s : State) : Bool :=
  s.resetPin == .high && s.localPort.arrived.all fun i => i == c

/-- The commands that are requests of the local port (R172). -/
def isRequest : Instr → Bool
  | .loadParameter .. => true
  | .loadTone .. => true
  | .clearTone _ => true
  | .start => true
  | .stop => true
  | .restart => true
  | .submit .. => true
  | .withdraw _ => true
  | .veto .. => true
  | .readStatus => true
  | .readRoster => true
  | .readOrder _ => true
  | .readBallot _ => true
  | .readTallies => true
  | .clearTallies => true
  | .takeNotice => true
  | .badRequest _ => true
  | _ => false

/-- The state after a request that is taken with `t`; a request that cannot be taken changes nothing. -/
def taking (c : Instr) (s t : State) : State := if takesRequest c s then t else s

/-- A carrier reset (R82). The port carries 0 from this clock, since the output state is not LIVE after it (R81). -/
def carrierReset (s : State) : State :=
  { s with carrier :=
      { s.carrier with accumulator := 0, frequency := 0, amplitude := 0, current := none, synced := false,
                       delayLine := [], port := 0 } }

/-- The attempt count set to 0, counting for no frame, if it counts for a frame that `gone` names (R144). -/
def forgetAttempts (gone : Nat → Bool) (b : BusInterface) : BusInterface :=
  if b.attemptsFor.any gone then { b with attempts := 0, attemptsFor := none } else b

/-- Remove every waiting frame that `p` picks out, without reports (R158). A frame in transmission that `p` picks out
completes and is removed when its attempt ends. -/
def purgeWhere (p : QueueEntry → Bool) (s : State) : State :=
  let gone := s.queue.entries.filter fun e => p e && !inTransmission s e
  let caught := s.queue.entries.any fun e => p e && inTransmission s e
  { s with
    queue := { s.queue with entries := s.queue.entries.filter fun e => !(p e && !inTransmission s e) }
    bus := forgetAttempts (fun i => gone.any fun e => e.ident == i)
      { s.bus with sending := s.bus.sending.map fun a => { a with removeAfter := a.removeAfter || caught } } }

/-- The order-id purge (R158). -/
def purgeOrder (id : OrderId) (s : State) : State :=
  purgeWhere (fun e => frameOrderId (ownNumber s) e.payload == some id) s

/-- Remove the frame with an ident from the queue, with the attempt count if it counts for that frame (R144, R157). -/
def removeFrame (ident : Nat) (s : State) : State :=
  { s with
    queue := { s.queue with entries := s.queue.entries.filter fun e => e.ident != ident }
    bus := forgetAttempts (fun i => i == ident) s.bus }

/-- The Epoch Timer without counter, claims and transient records; the last mark reading stays (R32, R37, R52). -/
def timerCleared (t : EpochTimer) : EpochTimer :=
  { t with grid := none, claims := Claims.none, provisional := none, leadFall := none, reference := none,
           pulseFall := none, endedPulse := none }

/-- The Order Engine with an empty Schedule and no ballot; the sequence counter stays (R27). -/
def ordersCleared (o : OrderEngine) : OrderEngine :=
  { o with schedule := Table.fill 16 none, ballots := Table.fill 4 none }

/-- The Membership Controller in a state that holds no record of its own, with an empty Roster; the
consecutive-withdrawal count stays (R102, R120, R133). -/
def membershipCleared (state : StationState) (m : Membership) : Membership :=
  { state := state, listenTimer := 0, cohortSeen := false, mismatch := 0, formation := Table.fill 32 none,
    repeatTimer := 0, slowTimer := 0, slowPosted := false, alignTimer := 0, runningMismatch := 0,
    blindHorizon := none, withdrawals := m.withdrawals, memberMarks := 0, quiet := 0, leaving := none,
    roster := Table.fill 32 RosterEntry.absent }

/-- The Bus Interface stopped: CD released, nothing read, a frame in transmission truncated, no attempt counted (R149,
R150). On exit from IDLE it goes on from here: slot timer 0, not idle, outside a frame, idle count 0 (R135). -/
def busStopped : BusInterface := ⟨0, false, 0, none, none, false, false, false, 0, none⟩

/-- Entry to LISTEN with a new listen span (R90); the last mark reading becomes absent (R47). START keeps the tallies,
every other entry clears them (R164). -/
def enterListen (keepTallies : Bool) (s : State) : State :=
  { s with
    membership := membershipCleared .listen s.membership
    timer := { timerCleared s.timer with lastReading := none }
    monitor := if keepTallies then s.monitor else { s.monitor with tallies := Tallies.zero } }

/-- Entry to IDLE by any path: the Bus Interface stops, the queue is emptied, and what the earlier state held is
discarded (R52, R85, R89, R150, R159). -/
def enterIdle (s : State) : State :=
  { s with
    membership := membershipCleared .idle s.membership
    timer := timerCleared s.timer
    orders := ordersCleared s.orders
    queue := { s.queue with entries := [] }
    bus := busStopped }

/-- LEAVING ends: the station enters its destination (R117). The queue is empty then (R159). -/
def endLeaving (s : State) : State :=
  match s.membership.leaving with
  | none => s
  | some l =>
    match l.destination with
    | .idle => enterIdle s
    | .listen => enterListen false { s with queue := { s.queue with entries := [] } }

/-- The epoch counter, read as 0 while absent. -/
def nowEpoch (s : State) : Epoch := (s.timer.grid.map (·.counter)).getD 0

end Sys2Proof.Machine
end

