-- ==== Sys2Proof/Machine/Carrier.lean ====
section
/-! DEFINITION. The Carrier Generator (chapter 4): the sample of a clock, the carrier over one reference clock, and taking a tone
into the carrier. -/

namespace Sys2Proof.Machine

/-- The binary places of the fixed-point numbers in which the sine is computed. -/
def sineBits : Nat := 96

/-- π in units of 2^−96, rounded down. -/
def piScaled : Nat := 248902613312231085230521944622

/-- The first terms of the sine's power series from a term on, alternating in sign, in units of 2^−96. `k` numbers the
term and `square` is the square of the angle. -/
def sineTerms (square : Nat) : Nat → Nat → Nat → Int
  | 0, _, _ => 0
  | more + 1, k, term =>
    (term : Int) - sineTerms square more (k + 1) (term * square / (2 ^ (2 * sineBits) * (2 * k + 2) * (2 * k + 3)))

/-- The sine of `q` steps of the 16384 of a turn, for q in 0..4096, in units of 2^−96. -/
def quarterSine (q : Nat) : Nat :=
  let angle := q * piScaled / 8192
  (sineTerms (angle * angle) 17 0 angle).toNat

/-- 8 × amplitude × a sine magnitude, rounded to the nearest integer, halves away from zero (R74). -/
def scaledMagnitude (amplitude sine : Nat) : Nat := (8 * amplitude * sine + 2 ^ (sineBits - 1)) / 2 ^ sineBits

/-- The phase index: the top 14 bits of the accumulator (R74). -/
def phaseIndex (accumulator : BitVec 32) : Nat := accumulator.toNat / 2 ^ 18

/-- The sample of a clock, 8·a·sin(2π·P/16384) rounded (R74). -/
def sampleOf (accumulator : BitVec 32) (amplitude : BitVec 12) : Int :=
  let q := phaseIndex accumulator % 4096
  match phaseIndex accumulator / 4096 with
  | 0 => (scaledMagnitude amplitude.toNat (quarterSine q) : Int)
  | 1 => (scaledMagnitude amplitude.toNat (quarterSine (4096 - q)) : Int)
  | 2 => -(scaledMagnitude amplitude.toNat (quarterSine q) : Int)
  | _ => -(scaledMagnitude amplitude.toNat (quarterSine (4096 - q)) : Int)

/-- The sample that leaves the delay line at this clock: the one computed 9 + output delay clocks ago (R81). -/
def delayedSample (s : State) : Int :=
  s.carrier.delayLine.getD (Config.fixedLatency + s.profile.outputDelay - 1) 0

/-- The carrier over one reference clock: the sample is computed from the accumulator and amplitude as they stand and
enters the delay line, the port shows the delayed sample if the output state is LIVE and 0 otherwise, and the frequency
word is added (R73, R81). -/
def clockCarrier (s : State) : Carrier :=
  { s.carrier with
    accumulator := s.carrier.accumulator + s.carrier.frequency
    delayLine := (sampleOf s.carrier.accumulator s.carrier.amplitude :: s.carrier.delayLine).take Config.delayLineLength
    port := if outputState s = .live then BitVec.ofInt 16 (delayedSample s) else 0 }

/-- Silence the carrier: an applied order named a tone entry that is not valid here (R77). The port carries 0 from this
clock (R81). -/
def silenceCarrier (c : Carrier) : Carrier :=
  { c with accumulator := 0, frequency := 0, amplitude := 0, current := none, synced := false, port := 0 }

/-- Take a valid tone entry into the carrier (R75, R76): RESTART sets the accumulator to the phase offset × 65536, CONTINUE
keeps it. -/
def takeTone (i : ToneIndex) (mode : PhaseMode) (setSynced : Bool) (c : Carrier) : Carrier :=
  let e := c.tones.get i
  { c with
    accumulator := if mode = .restart then BitVec.ofNat 32 (e.offset.toNat * 65536) else c.accumulator
    frequency := e.frequency
    amplitude := e.amplitude
    current := some i
    synced := c.synced || (decide (mode = .restart) && setSynced) }

/-- Post LIVE if the output state has become LIVE since it was as given (R80). -/
def postIfLive (before : OutputState) (s : State) : State :=
  if before ≠ .live ∧ outputState s = .live then post (.live s.carrier.current) s else s

/-- An applied order reaches the Carrier Generator (R75 to R77), and LIVE is posted if the output state becomes LIVE
(R80). -/
def applyTone (i : ToneIndex) (mode : PhaseMode) (setSynced : Bool) (s : State) : State :=
  if (toneAt s i).valid then
    postIfLive (outputState s) { s with carrier := takeTone i mode setSynced s.carrier }
  else { s with carrier := silenceCarrier s.carrier }

end Sys2Proof.Machine
end

