-- ==== Sys2Proof/Machine/Queue.lean ====
section
/-! DEFINITION. The Transmit Queue (chapter 9): taking a frame in, displacement, losses and what a producer does about
them, aborts at the originator (R13) and completion of a ballot (R10). -/

namespace Sys2Proof.Machine

/-- FRAME_DROPPED for a frame (R155, R167). -/
def postDropped (how : FrameLoss) (p : Payload) (s : State) : State :=
  post (.frameDropped how (payloadKind p) (frameOrderId (ownNumber s) p)) s

/-- Whether a held frame is of the same limit class as an offered one: at most one HELLO, EPOCH, LEAVE, and one VOTE per
order id (R151, R152). -/
def sameLimit (offered held : Payload) : Bool :=
  match offered, held with
  | .hello .., .hello .. => true
  | .epoch .., .epoch .. => true
  | .leave .., .leave .. => true
  | .vote o q _, .vote o' q' _ => o == o' && q == q'
  | _, _ => false

/-- Take a frame as a new entry. -/
def appendFrame (p : Payload) (s : State) : State :=
  { s with queue :=
      { entries := s.queue.entries ++ [⟨s.queue.nextIdent, s.queue.nextIdent, p⟩], nextIdent := s.queue.nextIdent + 1 } }

/-- Replace a waiting frame in place: same place, same age, new fields (R152). It is another frame, with an attempt count
of its own (assumption 9). -/
def replaceFrame (old : QueueEntry) (p : Payload) (s : State) : State :=
  { s with
    queue :=
      { entries := s.queue.entries.map fun e => if e.ident == old.ident then ⟨s.queue.nextIdent, e.age, p⟩ else e
        nextIdent := s.queue.nextIdent + 1 }
    bus := forgetAttempts (fun i => i == old.ident) s.bus }

/-- The highest kind code among the held frames (R153). -/
def highestCode (s : State) : Nat := s.queue.entries.foldl (fun top e => max top (kindCode (payloadKind e.payload))) 0

/-- The newest waiting frame of a kind code (R153). -/
def newestWaiting (code : Nat) (s : State) : Option QueueEntry :=
  (s.queue.entries.filter fun e => kindCode (payloadKind e.payload) == code && !inTransmission s e).getLast?

/-- Offer a frame to the queue (R152 to R154). `lose` is what the producer of a lost frame does about it. A frame in
transmission that is displaced leaves the queue at once, and its loss is reported at the end of its attempt. -/
def offerWith (lose : Payload → State → State) (p : Payload) (s : State) : State :=
  match s.queue.entries.find? fun e => sameLimit p e.payload with
  | some e =>
    if inTransmission s e then lose p (postDropped .refused p s) else replaceFrame e p s
  | none =>
    if s.queue.entries.length < Config.queuePlaces then appendFrame p s
    else if kindCode (payloadKind p) < highestCode s then
      match newestWaiting (highestCode s) s with
      | some victim =>
        lose victim.payload (postDropped .displaced victim.payload (appendFrame p (removeFrame victim.ident s)))
      | none =>
        match s.bus.sending with
        | some a =>
          appendFrame p (removeFrame a.ident { s with bus := { s.bus with sending := some { a with displaced := true } } })
        | none => s
    else lose p (postDropped .refused p s)

/-- Remove the record of an order from the Schedule; its slot becomes free (R3). -/
def removeOrder (id : OrderId) (s : State) : State :=
  { s with orders := { s.orders with schedule := s.orders.schedule.dropWhere fun o => o.id == id } }

/-- Change the record of an order in place. -/
def updateOrder (id : OrderId) (f : Order → Order) (s : State) : State :=
  { s with orders := { s.orders with schedule := s.orders.schedule.updateWhere (fun o => o.id == id) f } }

/-- Add an order record in the lowest-numbered free slot (R3). -/
def addOrder (o : Order) (s : State) : State :=
  { s with orders := { s.orders with schedule := s.orders.schedule.putFirstFree o } }

/-- Free the ballot of an own order (R7). -/
def freeBallot (seq : Seq) (s : State) : State :=
  { s with orders := { s.orders with ballots := s.orders.ballots.dropWhere fun b => b.seq == seq } }

/-- Change the ballot of an own order in place. -/
def updateBallot (seq : Seq) (f : Ballot → Ballot) (s : State) : State :=
  { s with orders := { s.orders with ballots := s.orders.ballots.updateWhere (fun b => b.seq == seq) f } }

/-- An abort at the originator (R13): the order and its ballot go, its waiting frames are purged, ABORT is offered unless
the reason is UNSENT, and ORDER_ABORTED is posted. -/
def abortWith (lose : Payload → State → State) (b : Ballot) (reason : AbortReason) (refuser : StationNo) (s : State) :
    State :=
  let cleared := purgeOrder (ownId s b.seq) (freeBallot b.seq (removeOrder (ownId s b.seq) s))
  let told :=
    if reason = .unsent then cleared else offerWith lose (.abort b.seq b.target reason refuser) cleared
  post (.orderAborted refuser (ownId s b.seq) reason) told

/-- What the producer of a lost frame does (R155): R23 for PROPOSE, R24 for COMMIT, R19 for VOTE, R117 for LEAVE, nothing
for ABORT, EPOCH and HELLO. A report on an order whose ballot is gone is ignored. The number bounds how often one loss
leads to another (Config.lossDepth). -/
def lose : Nat → Payload → State → State
  | 0 => fun _ s => s
  | n + 1 => fun p s =>
    match p with
    | .propose seq target .. =>
      match ballotWithSeq s seq with
      | some b =>
        if b.state = .awaitingSend ∧ b.target = target then abortWith (lose n) b .unsent (ownNumber s) s else s
      | none => s
    | .commit seq target =>
      match ballotWithSeq s seq with
      | some b =>
        if b.state = .committing ∧ b.target = target then abortWith (lose n) b .commitLost (ownNumber s) s else s
      | none => s
    | .vote origin seq .accept => updateOrder ⟨origin, seq⟩ (fun o => { o with vote := .unsent }) s
    | .leave _ => endLeaving s
    | _ => s

/-- A frame is lost: its producer acts (R155). -/
def loseFrame (p : Payload) (s : State) : State := lose Config.lossDepth p s

/-- Offer a frame to the queue, with the consequences of every loss the offer causes (R152 to R155). -/
def offer (p : Payload) (s : State) : State := offerWith loseFrame p s

/-- Abort the order of an open ballot at the originator (R13). -/
def abortOwn (b : Ballot) (reason : AbortReason) (refuser : StationNo) (s : State) : State :=
  abortWith loseFrame b reason refuser s

/-- Whether every elector has accepted (R10). -/
def ballotComplete (b : Ballot) : Bool := subset b.electorate b.accepted

/-- A complete ballot enters COMMITTING and queues COMMIT (R10); a refused COMMIT is lost at once (R24). -/
def commitBallot (b : Ballot) (s : State) : State :=
  offer (.commit b.seq b.target) (updateBallot b.seq (fun x => { x with state := .committing }) s)

/-- Check the completion of the ballot of an own order, if it is COLLECTING (R10). -/
def checkBallot (seq : Seq) (s : State) : State :=
  match ballotWithSeq s seq with
  | some b => if b.state = .collecting ∧ ballotComplete b then commitBallot b s else s
  | none => s

/-- A ballot without one station as elector (R16). -/
def withoutElector (n : StationNo) (b : Ballot) : Ballot :=
  { b with electorate := removeFrom b.electorate n, accepted := removeFrom b.accepted n }

/-- A lost peer leaves the electorate and the accepted set of every open ballot, and completion is checked for each (R16).
DESIGN CHOICE: in the order of the ballot slots, which decides the age order of their COMMITs (assumption 31). -/
def loseElector (n : StationNo) (s : State) : State :=
  (openBallots s).foldl (fun t b => checkBallot b.seq t)
    { s with orders := { s.orders with ballots := s.orders.ballots.map (Option.map (withoutElector n)) } }

/-- An order leaves the Schedule FIRED or VETOED: the record goes, an open ballot of it is freed (R56), and its waiting
frames are purged (R68). -/
def retireOrder (id : OrderId) (s : State) : State :=
  let removed := removeOrder id s
  purgeOrder id (if id.origin = ownNumber s then freeBallot id.seq removed else removed)

/-- Whether the vote close of a ballot has passed: the counter has reached T − C (R12). -/
def voteClosed (s : State) (b : Ballot) : Bool :=
  s.timer.grid.any fun g => decide (epochDistance g.counter b.target ≤ s.profile.commitLead)

/-- The producer hears of a spoiled attempt below the eighth (R157): across the vote close, a PROPOSE is taken as not
transmitted (R12) and a COMMIT as lost (R25). -/
def reportSpoiled (p : Payload) (s : State) : State :=
  match p with
  | .propose seq target .. =>
    match ballotWithSeq s seq with
    | some b =>
      if b.state = .awaitingSend ∧ b.target = target ∧ voteClosed s b then abortOwn b .unsent (ownNumber s) s else s
    | none => s
  | .commit seq target =>
    match ballotWithSeq s seq with
    | some b =>
      if b.state = .committing ∧ b.target = target ∧ voteClosed s b then abortOwn b .commitLost (ownNumber s) s else s
    | none => s
  | _ => s

/-- A PROPOSE or COMMIT that lost arbitration across its vote close is removed as the vote close removes a waiting one
(R158 with R12; assumption 10). -/
def reportLostAcrossClose (p : Payload) (s : State) : State :=
  match p with
  | .propose seq target .. =>
    match ballotWithSeq s seq with
    | some b =>
      if b.state = .awaitingSend ∧ b.target = target ∧ voteClosed s b then abortOwn b .unsent (ownNumber s) s else s
    | none => s
  | .commit seq target =>
    match ballotWithSeq s seq with
    | some b =>
      if b.state = .committing ∧ b.target = target ∧ voteClosed s b then abortOwn b .timeout (ownNumber s) s else s
    | none => s
  | _ => s

/-- A PROPOSE has been transmitted (R8): the electorate is the MEMBER entries of the Roster, and a ballot without electors
is complete at once. After the vote close the order is aborted with TIMEOUT instead (R12). -/
def proposeTransmitted (seq : Seq) (target : Epoch) (s : State) : State :=
  match ballotWithSeq s seq with
  | none => s
  | some b =>
    if b.state = .awaitingSend ∧ b.target = target then
      if voteClosed s b then abortOwn b .timeout (ownNumber s) s
      else
        checkBallot seq (updateBallot seq (fun x =>
          { x with state := .collecting, accepted := 0,
                   electorate := setWhere (fun n => (rosterEntry s n).presence == .member) }) s)
    else s

/-- Whether the veto point of the epoch before a target has come (R25). -/
def vetoPointPassed (s : State) (target : Epoch) : Bool :=
  s.timer.grid.any fun g => epochDistance g.counter target == 1 && decide (vetoPhase s.profile ≤ g.phase)

/-- A COMMIT has been transmitted: the order becomes READY, its ballot is freed and ORDER_COMMITTED is posted (R11), or,
past the veto point of epoch T − 1, the ballot is freed and the order stays PENDING (R25). -/
def commitTransmitted (seq : Seq) (target : Epoch) (s : State) : State :=
  match ballotWithSeq s seq with
  | none => s
  | some b =>
    if b.state = .committing ∧ b.target = target then
      if vetoPointPassed s target then freeBallot seq s
      else
        post (.orderCommitted (ownId s seq) target)
          (freeBallot seq (updateOrder (ownId s seq) (fun o => { o with state := .ready }) s))
    else s

end Sys2Proof.Machine
end

