-- ==== Sys2Proof/Machine/Cohort.lean ====
section
/-! DEFINITION. The shared operations of the Membership Controller (chapters 5 to 7): withdrawal, returns to LISTEN, entry
to FORMING and ALIGNING, alignment, and the Roster. -/

namespace Sys2Proof.Machine

/-- The destination a cause fixes first (R115). -/
def causeDestination : Cause → Destination
  | .holdFault => .listen
  | .tally => .listen
  | .duplicate => .idle
  | .stop => .idle

/-- The consecutive-withdrawal count after a withdrawal with a cause (R118). -/
def countedWithdrawals (cause : Cause) (count : Nat) : Nat :=
  if causeDestination cause = .listen then min (count + 1) Config.withdrawalTop else count

/-- Whether the rejoin limit changes the destination (R118). -/
def rejoinLimited (limit : Nat) (cause : Cause) (count : Nat) : Bool :=
  causeDestination cause == .listen && limit != 0 && decide (limit ≤ countedWithdrawals cause count)

/-- The states a withdrawal leaves (R115). -/
def withdrawable : StationState → Bool
  | .forming => true
  | .aligning => true
  | .arriving => true
  | .member => true
  | _ => false

/-- Step 1 of a withdrawal: count, destination, WITHDRAWN (R116, R118). -/
def withdrawNotice (cause : Cause) (s : State) : State :=
  let limited := rejoinLimited s.profile.rejoinLimit cause s.membership.withdrawals
  post (.withdrawn cause (if limited then .idle else causeDestination cause) limited)
    { s with membership := { s.membership with withdrawals := countedWithdrawals cause s.membership.withdrawals } }

/-- Step 2 of a withdrawal: LEAVING, no claim, no counter, carrier reset (R116). The records of step 4 go with it; step 3
does not read them. -/
def enterLeaving (cause : Cause) (destination : Destination) (s : State) : State :=
  carrierReset { s with
    membership :=
      { membershipCleared .leaving s.membership with leaving := some ⟨s.membership.state, cause, destination⟩ }
    timer := timerCleared s.timer }

/-- Step 3 of a withdrawal (R26): an ORIGIN_LEAVING ABORT for each open ballot whose COMMIT is not in transmission, in
slot order, then an ORDER_ABORTED for each, then no ballot and no order. No producer acts on what these ABORTs displace
(R116). -/
def abandonOrders (s : State) : State :=
  let left := (openBallots s).filter fun b => !commitOnBus s b.seq b.target
  let offered := left.foldl
    (fun t b => offerWith (fun _ u => u) (.abort b.seq b.target .originLeaving (ownNumber s)) t) s
  let posted := left.foldl (fun t b => post (.orderAborted (ownNumber s) (ownId s b.seq) .originLeaving) t) offered
  { posted with orders := ordersCleared posted.orders }

/-- Step 5 of a withdrawal: every waiting frame goes but the ORIGIN_LEAVING ABORTs (R116, R159). -/
def purgeForLeaving (s : State) : State :=
  purgeWhere (fun e => match e.payload with
    | .abort _ _ .originLeaving _ => false
    | _ => true) s

/-- A withdrawal (R116): from FORMING, ALIGNING, ARRIVING or MEMBER; no effect elsewhere (R115). -/
def withdraw (cause : Cause) (s : State) : State :=
  if withdrawable s.membership.state then
    let limited := rejoinLimited s.profile.rejoinLimit cause s.membership.withdrawals
    let destination := if limited then .idle else causeDestination cause
    let purged := purgeForLeaving (abandonOrders (enterLeaving cause destination (withdrawNotice cause s)))
    if s.membership.state = .aligning then endLeaving purged else offer (.leave cause) purged
  else s

/-- Take the withdrawal the Monitor asked for, if it asked (R163). -/
def withdrawIf (asked : Bool) (s : State) : State := if asked then withdraw .tally s else s

/-- A return to LISTEN with ALIGN_FAILED (R111): from ALIGNING or ARRIVING; no effect elsewhere (R109). A frame in
transmission completes. -/
def alignFailed (why : AlignFailure) (s : State) : State :=
  if s.membership.state = .aligning ∨ s.membership.state = .arriving then
    let posted := post (.alignFailed why) s
    enterListen false (purgeWhere (fun _ => true) (carrierReset
      { posted with orders := ordersCleared posted.orders, timer := timerCleared posted.timer }))
  else s

/-- The Bus Interface reports a duplicate number after a frame accepted in the state `was` has been delivered (R115, R119,
R148). R119 does not say which state counts where the delivery has changed it. DESIGN CHOICE: the state after the delivery,
so that a FORMING station whose delivery entered ALIGNING withdraws from there and queues no LEAVE, but for LISTEN, which
counts before and after (assumption 12). -/
def duplicateNumber (was : StationState) (s : State) : State :=
  if was = .listen ∨ s.membership.state = .listen then
    post (.withdrawn .duplicate .idle false) (enterIdle s)
  else match s.membership.leaving with
    | some l =>
      post (.withdrawn .duplicate .idle false)
        { s with membership := { s.membership with leaving := some { l with destination := .idle } } }
    | none => withdraw .duplicate s

/-- A HELLO of this station (section 8.2). -/
def ownHello (state : HelloState) (s : State) : Payload := .hello state s.profile.group (digestOf s.profile)

/-- Whether a frame is a HELLO(FORMING). -/
def isFormingHello : Payload → Bool
  | .hello .forming _ _ => true
  | _ => false

/-- Release the formation claim if the formation set holds E or more stations (R97). -/
def releaseIfComplete (s : State) : State :=
  if s.profile.expected ≤ formationSize s.membership.formation then
    { s with timer := { s.timer with claims := { s.timer.claims with formation := false } } }
  else s

/-- The formation set with a station's entry made (R95). -/
def formationWith (n : StationNo) (g : Group) (f : Table (Option Group) 32) : Table (Option Group) 32 := f.set n (some g)

/-- Entry to FORMING (R94), alone or on a HELLO(FORMING) of a sender. -/
def enterForming (sender : Option (StationNo × Group)) (s : State) : State :=
  let alone := formationWith (ownNumber s) s.profile.group (Table.fill 32 none)
  let set := match sender with
    | some (n, g) => if n = ownNumber s then alone else formationWith n g alone
    | none => alone
  let entered := { s with
    membership := { membershipCleared .forming s.membership with formation := set }
    timer := { s.timer with claims := { s.timer.claims with formation := true } } }
  releaseIfComplete (offer (ownHello .forming s) entered)

/-- Remove a waiting HELLO(FORMING), which is no loss (R99, R101, R158). -/
def dropFormingHello (s : State) : State := purgeWhere (fun e => isFormingHello e.payload) s

/-- Set a Roster entry. The own entry is always ABSENT and never changes (R121). -/
def setRoster (n : StationNo) (e : RosterEntry) (s : State) : State :=
  if n = ownNumber s then s
  else { s with membership := { s.membership with roster := s.membership.roster.set n e } }

/-- Entry to ALIGNING on a matching EPOCH frame (R99, R107): the blind horizon, the alignment reference, the span from 0, an
empty running mismatch record, and the sender in the Roster (R122). -/
def enterAligning (sender : StationNo) (mark horizon : Epoch) (start : Nat) (s : State) : State :=
  let cleared := dropFormingHello { s with
    membership := { membershipCleared .aligning s.membership with blindHorizon := some horizon }
    timer := { timerCleared s.timer with reference := some ⟨mark, start⟩ } }
  setRoster sender ⟨.member, none, 0⟩ cleared

/-- Alignment (R50, R51, R110): the counter and phase are set, recorded orders whose target is not ahead are removed, the
blind horizon is cleared if not ahead, and the station is ARRIVING and queues HELLO(ARRIVING). -/
def align (counter : Epoch) (phase : Nat) (s : State) : State :=
  let stale := (liveOrders s).filter fun o => !aheadOf counter o.target
  let purged := stale.foldl (fun t o => purgeOrder o.id t) s
  let kept := { purged with
    orders := { purged.orders with schedule := purged.orders.schedule.dropWhere (fun o => !aheadOf counter o.target) }
    timer := { timerCleared purged.timer with grid := some ⟨counter, phase, 0, false⟩ }
    membership :=
      { purged.membership with
        state := .arriving, alignTimer := 0
        blindHorizon := purged.membership.blindHorizon.filter (aheadOf counter) } }
  offer (ownHello .arriving s) kept

/-- A present entry becomes ABSENT (R123). -/
def losePeer (n : StationNo) (how : PeerLoss) (s : State) : State :=
  let gone := setRoster n RosterEntry.absent s
  loseElector n (if gridState s.membership.state then post (.peerLost n how) gone else gone)

/-- An entry becomes MEMBER with a group and silence 0, with PEER_JOINED if it was not MEMBER before (R124). -/
def raisePeer (n : StationNo) (group : Option Group) (s : State) : State :=
  let raised := setRoster n ⟨.member, group, 0⟩ s
  if (rosterEntry s n).presence ≠ .member ∧ gridState s.membership.state ∧ n ≠ ownNumber s then
    post (.peerJoined n group) raised
  else raised

/-- The Roster after an accepted PROPOSE, VOTE, COMMIT, ABORT or EPOCH frame (R127). -/
def heardFrom (n : StationNo) (s : State) : State :=
  let e := rosterEntry s n
  raisePeer n (if isPresent e then e.group else none) s

/-- The Roster after an accepted ORIGIN_LEAVING ABORT: the silence of a present entry becomes 0 (R127). -/
def heardLeaving (n : StationNo) (s : State) : State :=
  let e := rosterEntry s n
  if isPresent e then setRoster n { e with silence := 0 } s else s

/-- PROFILE_MISMATCH at most once per sender in the record of LISTEN and FORMING (R93). -/
def noteMismatch (n : StationNo) (d : Digest) (s : State) : State :=
  if inSet s.membership.mismatch n then s
  else post (.profileMismatch n d)
    { s with membership := { s.membership with mismatch := addTo s.membership.mismatch n } }

/-- PROFILE_MISMATCH at most once per sender in the running record (R106). -/
def noteRunningMismatch (n : StationNo) (d : Digest) (s : State) : State :=
  if inSet s.membership.runningMismatch n then s
  else post (.profileMismatch n d)
    { s with membership := { s.membership with runningMismatch := addTo s.membership.runningMismatch n } }

end Sys2Proof.Machine
end

