-- ==== Sys2Proof/Machine/Accepted.lean ====
section
/-! DEFINITION. The frames the Bus Interface accepts (R87, R145 to R148): PROPOSE_ACCEPTED to LEAVE_ACCEPTED. The Order
Engine acts first, then the Membership Controller, then the Roster (R122); a duplicate number is reported last (R148). -/

namespace Sys2Proof.Machine

/-- What the Bus Interface has read of the frame does not contradict its acceptance: its outcome has not been taken yet, as an
own frame's is by its attempt (R147); once its CHECK has been read, the frame passes this station's test and is the one named;
and once its spoil slot has been read, the slot was recessive (R145). -/
def readingAgrees (s : State) (sender : StationNo) (p : Payload) : Bool :=
  match s.bus.reading with
  | none => true
  | some r =>
    !r.settled && (!checkRead r.slots || (ownTest r.slots && frameRead r.slots == some (sender, p))) &&
      spoilRead r.slots != some false

/-- Whether the station can accept a frame: it is not IDLE (R86), no frame of its own is in transmission (R147), and the frame
is not one of its own whose attempt has just ended (R147), passes the format test (R139) and agrees with what was read. -/
def canAccept (s : State) (sender : StationNo) (p : Payload) : Bool :=
  s.membership.state != .idle && s.bus.sending.isNone && p.WellFormed && readingAgrees s sender p

/-- The outcome of the frame being read has come, and no other outcome of it is taken (R145, R147). Its END slots are still to
be read if the slots are being read one by one (R136); otherwise the frame is over, with an idle count of 0 (R137; assumption
4). -/
def frameEnds (s : State) : State :=
  if s.bus.reading.any fun r => checkRead r.slots then
    { s with bus := { s.bus with reading := s.bus.reading.map fun r => { r with settled := true } } }
  else { s with bus := { s.bus with reading := none, idleCount := 0, spoiling := false } }

/-- The clock of the START of the frame being read, and the epoch counter there (R136, R105). A frame whose START was not
recorded is taken to have begun at its acceptance (assumption 4). -/
def frameStart (s : State) : Nat × Option Epoch :=
  match s.bus.reading with
  | some r => (r.start, r.counter)
  | none => (s.clock, s.timer.grid.map (·.counter))

/-- An accepted frame: delivered as R87 states, then reported as a duplicate if it carries this station's own number
(R146, R148). -/
def accepted (sender : StationNo) (p : Payload) (deliver : State → State) (s : State) : State :=
  if canAccept s sender p then
    let delivered := deliver (frameEnds s)
    if sender = ownNumber s then duplicateNumber s.membership.state delivered else delivered
  else s

/-- The Roster part of a delivery, if the station still updates its Roster (R122). -/
def thenRoster (update : State → State) (s : State) : State :=
  if recordingState s.membership.state then update s else s

/-- The order record a PROPOSE makes (R1). -/
def proposedOrder (sender : StationNo) (seq : Seq) (target : Epoch) (mask : GroupMask) (tone : ToneIndex)
    (mode : PhaseMode) (vote : VoteField) : Order :=
  ⟨⟨sender, seq⟩, target, mask, tone, mode, .pending, vote, false, false⟩

/-- The verdict of a MEMBER on a PROPOSE: the first condition that holds (R17). -/
def judgePropose (s : State) (sender : StationNo) (seq : Seq) (target : Epoch) (mask : GroupMask) (tone : ToneIndex) :
    Verdict :=
  if (rosterEntry s sender).presence ≠ .member then .refuse .stranger
  else if (orderWithId s ⟨sender, seq⟩).isSome then .refuse .dupId
  else if !leadAccepted s (nowEpoch s) target then .refuse .late
  else if lacksTone s mask tone then .refuse .noTone
  else if (orderWithTarget s target).isSome then .refuse .clash
  else if 16 ≤ (liveOrders s).length then .refuse .full
  else .accept

/-- Whether an observer can record a PROPOSE (R20). -/
def canRecord (s : State) (id : OrderId) (target : Epoch) : Bool :=
  decide ((liveOrders s).length < 16) && (orderWithId s id).isNone && (orderWithTarget s target).isNone

/-- The Order Engine on an accepted PROPOSE (R17, R18, R20). -/
def deliverPropose (sender : StationNo) (seq : Seq) (target : Epoch) (mask : GroupMask) (tone : ToneIndex)
    (mode : PhaseMode) (s : State) : State :=
  let observe (t : State) : State :=
    if canRecord t ⟨sender, seq⟩ target then addOrder (proposedOrder sender seq target mask tone mode .none) t
    else alignFailed .cannotRecord t
  match s.membership.state with
  | .member =>
    match judgePropose s sender seq target mask tone with
    | .accept =>
      offer (.vote sender seq .accept) (addOrder (proposedOrder sender seq target mask tone mode .accepted) s)
    | .refuse g => offer (.vote sender seq (.refuse g)) s
  | .arriving =>
    let lead := epochDistance (nowEpoch s) target
    if 2 ≤ lead ∧ lead ≤ 32767 then observe s else s
  | .aligning => observe s
  | _ => s

/-- PROPOSE_ACCEPTED (R17, R18, R20, R127). -/
def execProposeAccepted (sender : StationNo) (seq : Seq) (target : Epoch) (mask : GroupMask) (tone : ToneIndex)
    (mode : PhaseMode) (s : State) : Host.Outcome State Fault Refusal :=
  .next (accepted sender (.propose seq target mask tone mode)
    (fun t => thenRoster (heardFrom sender) (deliverPropose sender seq target mask tone mode t)) s)

/-- The Order Engine of a MEMBER on an accepted VOTE (R9). -/
def deliverVote (voter origin : StationNo) (seq : Seq) (verdict : Verdict) (s : State) : State :=
  if s.membership.state = .member ∧ origin = ownNumber s then
    match ballotWithSeq s seq with
    | none => s
    | some b =>
      match verdict with
      | .accept =>
        if b.state = .collecting ∧ inSet b.electorate voter then
          checkBallot seq (updateBallot seq (fun x => { x with accepted := addTo x.accepted voter }) s)
        else s
      | .refuse g => if b.state = .awaitingSend then s else abortOwn b (.refused g) voter s
  else s

/-- VOTE_ACCEPTED (R9, R127). -/
def execVoteAccepted (voter origin : StationNo) (seq : Seq) (verdict : Verdict) (s : State) :
    Host.Outcome State Fault Refusal :=
  .next (accepted voter (.vote origin seq verdict)
    (fun t => thenRoster (heardFrom voter) (deliverVote voter origin seq verdict t)) s)

/-- The Order Engine on an accepted COMMIT (R21). -/
def deliverCommit (sender : StationNo) (seq : Seq) (target : Epoch) (s : State) : State :=
  if recordingState s.membership.state then
    match (orderWithId s ⟨sender, seq⟩).filter fun o => o.target == target with
    | some o => if o.state = .pending then updateOrder ⟨sender, seq⟩ (fun x => { x with state := .ready }) s else s
    | none => post (.orphanCommit ⟨sender, seq⟩ target) s
  else s

/-- COMMIT_ACCEPTED (R21, R127). -/
def execCommitAccepted (sender : StationNo) (seq : Seq) (target : Epoch) (s : State) :
    Host.Outcome State Fault Refusal :=
  .next (accepted sender (.commit seq target)
    (fun t => thenRoster (heardFrom sender) (deliverCommit sender seq target t)) s)

/-- The Order Engine on an accepted ABORT (R22). -/
def deliverAbort (sender : StationNo) (seq : Seq) (target : Epoch) (reason : AbortReason) (refuser : StationNo)
    (s : State) : State :=
  if recordingState s.membership.state then
    match (orderWithId s ⟨sender, seq⟩).filter fun o => o.target == target && o.state == .pending with
    | some _ =>
      post (.orderAborted refuser ⟨sender, seq⟩ reason)
        (purgeOrder ⟨sender, seq⟩ (removeOrder ⟨sender, seq⟩ s))
    | none => s
  else s

/-- ABORT_ACCEPTED (R22, R127). -/
def execAbortAccepted (sender : StationNo) (seq : Seq) (target : Epoch) (reason : AbortReason) (refuser : StationNo)
    (s : State) : Host.Outcome State Fault Refusal :=
  .next (accepted sender (.abort seq target reason refuser)
    (fun t => thenRoster (if reason = .originLeaving then heardLeaving sender else heardFrom sender)
      (deliverAbort sender seq target reason refuser t)) s)

/-- The mark epoch of a received EPOCH differs from the station's own at the START of the frame (R105); none when the
counter was absent there. DESIGN CHOICE: a counter that was present at the START is compared even if it has been removed and
set anew since (assumption 33). -/
def disagreement (s : State) (mark : Epoch) (counterAtStart : Option Epoch) : Option Epoch :=
  counterAtStart.bind fun c =>
    if currentMark s.profile c = mark then none else some (currentMark s.profile c)

/-- A matching EPOCH at an ARRIVING or MEMBER station (R104, R105, R127): a disagreement is counted and posted, a MEMBER
that agrees removes its own waiting EPOCH of the same mark, and the Roster follows. A withdrawal that the count asks for
is taken last (R163). DESIGN CHOICE: it comes before the report of a duplicate number of the same frame (assumption 35), and
EPOCH_DISAGREE is posted before the PEER_JOINED of a sender that the same frame raises (assumption 38). -/
def checkEpoch (sender : StationNo) (mark : Epoch) (counterAtStart : Option Epoch) (s : State) : State :=
  match disagreement s mark counterAtStart with
  | some own =>
    let counted := countTally .disagree s
    withdrawIf counted.2 (heardFrom sender (post (.epochDisagree sender mark own) counted.1))
  | none =>
    let suppressed :=
      if s.membership.state = .member then
        purgeWhere (fun e => match e.payload with
          | .epoch m _ _ => m == mark
          | _ => false) s
      else s
    heardFrom sender suppressed

/-- A matching EPOCH at an ALIGNING station (R50, R51, R108): it replaces the alignment reference, and a mark pulse that
fell after its START and has ended aligns the station now. DESIGN CHOICE: the Roster follows the alignment, so that the
station posts PEER_JOINED for the sender as an ARRIVING one (assumption 34). -/
def referenceEpoch (sender : StationNo) (mark : Epoch) (start : Nat) (s : State) : State :=
  let referred := { s with timer := { s.timer with reference := some ⟨mark, start⟩, endedPulse := none } }
  heardFrom sender (match s.timer.endedPulse with
    | some fall =>
      if start < fall then
        let since := s.clock - fall
        align (mark + BitVec.ofNat 16 (markInterval s.profile + since / epochLength s.profile))
          (since % epochLength s.profile) referred
      else referred
    | none => referred)

/-- The Membership Controller and the Roster on an accepted EPOCH (R91, R99, R104 to R108). -/
def deliverEpoch (sender : StationNo) (mark horizon : Epoch) (digest : Digest) (start : Nat × Option Epoch)
    (s : State) : State :=
  match s.membership.state, digestMatches s digest with
  | .listen, true => enterAligning sender mark horizon start.1 s
  | .listen, false =>
    let seen := { s with membership := { s.membership with cohortSeen := true } }
    noteMismatch sender digest seen
  | .forming, true => enterAligning sender mark horizon start.1 s
  | .forming, false => noteMismatch sender digest s
  | .aligning, true => referenceEpoch sender mark start.1 s
  | .aligning, false => noteRunningMismatch sender digest s
  | .arriving, true => checkEpoch sender mark start.2 s
  | .arriving, false => noteRunningMismatch sender digest s
  | .member, true => checkEpoch sender mark start.2 s
  | .member, false => noteRunningMismatch sender digest s
  | _, _ => s

/-- EPOCH_ACCEPTED (R91, R99, R104 to R108, R127). -/
def execEpochAccepted (sender : StationNo) (mark horizon : Epoch) (digest : Digest) (s : State) :
    Host.Outcome State Fault Refusal :=
  .next (accepted sender (.epoch mark horizon digest) (deliverEpoch sender mark horizon digest (frameStart s)) s)

/-- A matching HELLO(FORMING) at a FORMING station (R95 to R97): a new sender is added and answered, and the release
condition is checked; a known sender's group is taken from the frame. -/
def joinFormation (sender : StationNo) (group : Group) (s : State) : State :=
  let added := { s with membership :=
    { s.membership with formation := formationWith sender group s.membership.formation } }
  if (s.membership.formation.get sender).isSome then added
  else releaseIfComplete (offer (ownHello .forming s) added)

/-- The Roster on a matching HELLO (R125, R126). -/
def rosterHello (sender : StationNo) (state : HelloState) (group : Group) (s : State) : State :=
  match state with
  | .forming => if isPresent (rosterEntry s sender) then losePeer sender .restarted s else s
  | .arriving =>
    setRoster sender ⟨.arriving, some group, 0⟩
      (if (rosterEntry s sender).presence = .member then losePeer sender .restarted s else s)
  | .member => raisePeer sender (some group) s

/-- A matching HELLO at a station that keeps a Roster, with the reply of a MEMBER to HELLO(ARRIVING) (R125, R126, R129). The own
number never receives a reply (R121). -/
def runningHello (sender : StationNo) (state : HelloState) (group : Group) (s : State) : State :=
  let updated := rosterHello sender state group s
  if s.membership.state = .member ∧ state = .arriving ∧ sender ≠ ownNumber s then offer (ownHello .member s) updated
  else updated

/-- The Membership Controller and the Roster on an accepted HELLO (R91, R95, R125, R126, R129). -/
def deliverHello (sender : StationNo) (state : HelloState) (group : Group) (digest : Digest) (s : State) : State :=
  match s.membership.state, digestMatches s digest, state with
  | .listen, true, .forming => enterForming (some (sender, group)) s
  | .listen, false, .forming => noteMismatch sender digest s
  | .listen, _, _ => s
  | .forming, true, .forming => joinFormation sender group s
  | .forming, true, _ => s
  | .forming, false, _ => noteMismatch sender digest s
  | .aligning, true, _ => runningHello sender state group s
  | .aligning, false, _ => noteRunningMismatch sender digest s
  | .arriving, true, _ => runningHello sender state group s
  | .arriving, false, _ => noteRunningMismatch sender digest s
  | .member, true, _ => runningHello sender state group s
  | .member, false, _ => noteRunningMismatch sender digest s
  | _, _, _ => s

/-- HELLO_ACCEPTED (R91, R95, R125, R126, R129). -/
def execHelloAccepted (sender : StationNo) (state : HelloState) (group : Group) (digest : Digest) (s : State) :
    Host.Outcome State Fault Refusal :=
  .next (accepted sender (.hello state group digest) (deliverHello sender state group digest) s)

/-- The Membership Controller and the Roster on an accepted LEAVE (R95, R128). The own entry of the formation set stays
(R95). -/
def deliverLeave (sender : StationNo) (reason : Cause) (s : State) : State :=
  match s.membership.state with
  | .forming =>
    if sender = ownNumber s then s
    else { s with membership := { s.membership with formation := s.membership.formation.set sender none } }
  | .aligning => if isPresent (rosterEntry s sender) then losePeer sender (.left reason) s else s
  | .arriving => if isPresent (rosterEntry s sender) then losePeer sender (.left reason) s else s
  | .member => if isPresent (rosterEntry s sender) then losePeer sender (.left reason) s else s
  | _ => s

/-- LEAVE_ACCEPTED (R95, R128). -/
def execLeaveAccepted (sender : StationNo) (reason : Cause) (s : State) : Host.Outcome State Fault Refusal :=
  .next (accepted sender (.leave reason) (deliverLeave sender reason) s)

end Sys2Proof.Machine
end

