-- ==== Sys2Proof/Machine/BusEvents.lean ====
section
/-! DEFINITION. The other events of the Bus Interface (chapters 8 and 9): the framing of CD slot by slot, frames that fail,
and the attempts of this station's own frames. -/

namespace Sys2Proof.Machine

/-- The slots read so far of the frame being read. -/
def slotsRead (s : State) : List Bool := (s.bus.reading.map fun r => r.slots).getD []

/-- Whether the outcome of the frame being read has been taken: it was accepted or discarded, or it was an own frame whose
attempt has ended (R145, R147). -/
def frameSettled (s : State) : Bool := s.bus.reading.any fun r => r.settled

/-- Whether a received frame can have failed this station's test: the station runs, the frame is not its own (R147), and
what was read of it does not pass (R145). A frame the station has already failed and spoils does not fail again (R86), and
neither does one whose outcome has been taken. -/
def canFail (s : State) : Bool :=
  s.membership.state != .idle && s.bus.sending.isNone && !s.bus.spoiling && !frameSettled s &&
    (!checkRead (slotsRead s) || !ownTest (slotsRead s))

/-- Whether a frame can be failed now: at the first clock of its spoil slot, where a driver starts to drive (R135, R145). A
frame whose CHECK was not read slot by slot fails as a whole with the command (assumptions 4 and 17). -/
def atSpoilSlot (s : State) : Bool :=
  s.bus.reading.all fun r => !checkRead r.slots || (spoilPlace r.slots == some r.slots.length && s.bus.slotTimer == 0)

/-- A frame whose CHECK was not read slot by slot is over with FRAME_FAILED (assumption 4); any other one has its outcome at the
end of its spoil slot (R145). -/
def endsUnread (s : State) : State := if s.bus.reading.any fun r => checkRead r.slots then s else frameEnds s

/-- An active receiver acts on a failed frame (R145, R161): it drives the spoil slot, if the slots are being read one by one,
and counts CHECK. -/
def failFrame (s : State) : State × Bool :=
  countTally .check { s with bus :=
    { s.bus with spoiling := s.bus.reading.isSome, drive := s.bus.drive || s.bus.reading.isSome } }

/-- FRAME_FAILED (R145, R146, R161 to R163): by the state at the spoil slot, an active receiver drives the slot and counts
CHECK, both at this moment; a passive receiver does neither. A withdrawal that the count asks for is taken at the end of the
spoil slot, by the reference clock at which it ends, or now if the frame was not read slot by slot (assumptions 4 and 17). -/
def execFrameFailed (s : State) : Host.Outcome State Fault Refusal :=
  .next (if canFail s && atSpoilSlot s then
    if activeState s.membership.state then
      let failed := failFrame (endsUnread s)
      if failed.1.bus.reading = none then withdrawIf failed.2 failed.1
      else { failed.1 with bus := { failed.1.bus with withdrawAsked := failed.1.bus.withdrawAsked || failed.2 } }
    else endsUnread s
  else s)

/-- RECEIVE_ERROR (R86, R108, R145): a passive receiver discards a failed frame whose spoil slot read recessive. In
ALIGNING the station returns to LISTEN with ALIGN_FAILED; in LISTEN and LEAVING nothing follows. -/
def execReceiveError (s : State) : Host.Outcome State Fault Refusal :=
  .next (if canFail s && !activeState s.membership.state && spoilRead (slotsRead s) != some false then
    let ended := frameEnds s
    if s.membership.state = .aligning then alignFailed .receiveError ended else ended
  else s)

/-- SPOILED_FRAME (R145): the frame is discarded, with no other consequence. -/
def execSpoiledFrame (s : State) : Host.Outcome State Fault Refusal :=
  .next (if s.membership.state ≠ .idle ∧ s.bus.sending = none ∧ frameSettled s = false ∧ spoilRead (slotsRead s) ≠ some true then
    frameEnds s
  else s)

/-- Whether one held frame goes before another: the lower kind code, then the older age (R156). -/
def goesBefore (a b : QueueEntry) : Bool :=
  decide (kindCode (payloadKind a.payload) < kindCode (payloadKind b.payload)) ||
    (kindCode (payloadKind a.payload) == kindCode (payloadKind b.payload) && decide (a.age < b.age))

/-- The waiting frame that selection names (R156). -/
def selectFrame (s : State) : Option QueueEntry :=
  (s.queue.entries.filter fun e => !inTransmission s e).foldl
    (fun best e => match best with
      | none => some e
      | some b => if goesBefore e b then some e else some b) none

/-- The payload fixed for an attempt: the horizon of an EPOCH is filled now (R103, R140). -/
def filledPayload (s : State) : Payload → Payload
  | .epoch mark _ digest => .epoch mark (horizonNow s mark) digest
  | p => p

/-- The frame being read at a START (R136). -/
def readingNow (s : State) : Reading := ⟨s.clock, s.timer.grid.map (·.counter), [], false⟩

/-- Whether a START can be driven now: at a slot edge outside a frame, or at the fall of CD that has just begun one (R140). -/
def atStart (s : State) : Bool :=
  match s.bus.reading with
  | none => s.bus.slotTimer == 0
  | some r => r.slots.isEmpty && r.start == s.clock

/-- ATTEMPT_START (R140, R144, R156): on an idle bus, or on joining a fall of CD there, the station drives START and the
frame that selection names is in transmission. -/
def execAttemptStart (s : State) : Host.Outcome State Fault Refusal :=
  .next (if s.membership.state ≠ .idle ∧ s.bus.sending = none ∧ busIdle s ∧ atStart s then
    match selectFrame s with
    | none => s
    | some e =>
      { s with bus :=
        { s.bus with
          slotTimer := 0
          slotRead := false
          reading := some (s.bus.reading.getD (readingNow s))
          sending := some ⟨e.ident, filledPayload s e.payload, false, false, false⟩
          spoiling := false
          drive := true
          attempts := if s.bus.attemptsFor = some e.ident then s.bus.attempts else 0
          attemptsFor := some e.ident } }
  else s)

/-- The attempt is over: no frame is in transmission and CD is released (R140). -/
def attemptOver (s : State) : State := { s with bus := { s.bus with sending := none, drive := false, spoiling := false } }

/-- The removal that a purge has left to the end of the attempt (R158). -/
def removeIf (doomed : Bool) (ident : Nat) (s : State) : State := if doomed then removeFrame ident s else s

/-- The attempt count set to 0, counting for no frame (R144). -/
def clearAttempts (s : State) : State := { s with bus := { s.bus with attempts := 0, attemptsFor := none } }

/-- A spoiled attempt (R143, R144, R154, R157): SPOIL is counted; a displaced frame is lost; the eighth attempt drops the
frame; any earlier one is reported and leaves the frame waiting, unless it is to be removed. A withdrawal that a tally
asks for is taken last (R163). -/
def spoilAttempt (a : Sending) (s : State) : State :=
  let counted := countTally .spoil (attemptOver s)
  if a.displaced then
    withdrawIf counted.2 (loseFrame a.payload (postDropped .displaced a.payload (clearAttempts counted.1)))
  else if s.bus.attempts + 1 < Config.maxAttempts then
    let more := { counted.1 with bus := { counted.1.bus with attempts := s.bus.attempts + 1 } }
    withdrawIf counted.2 (removeIf a.removeAfter a.ident (reportSpoiled a.payload more))
  else
    let dropped := countTally .drop counted.1
    withdrawIf (counted.2 || dropped.2)
      (loseFrame a.payload
        (clearAttempts (removeFrame a.ident (postDropped .spoiled a.payload dropped.1))))

/-- What the sender has read back of its frame, if more than START has been read (R141, R142). -/
def heardBack (s : State) (a : Sending) : Option ReadBack :=
  if (slotsRead s).length ≤ 1 then none else some (readBack (frameSlots (ownNumber s) a.payload) (slotsRead s))

/-- ARBITRATION_LOST (R141, R154, R157): the station stops driving and its frame waits again. A displaced frame is lost, a
frame across its vote close or named by a purge is removed (R158). -/
def execArbitrationLost (s : State) : Host.Outcome State Fault Refusal :=
  .next (match s.bus.sending with
    | none => s
    | some a =>
      if a.mismatch = false ∧ (heardBack s a).getD .lost = .lost then
        if a.displaced then loseFrame a.payload (postDropped .displaced a.payload (attemptOver s))
        else removeIf a.removeAfter a.ident (reportLostAcrossClose a.payload (attemptOver s))
      else s)

/-- BIT_MONITOR_MISMATCH (R142): in KIND through CHECK the sender stops driving and will drive the spoil slot; the attempt
is spoiled there (ATTEMPT_SPOILED). In START no frame began: the attempt is spoiled at that slot, which counts toward the
idle count. -/
def execBitMonitorMismatch (inStart : Bool) (s : State) : Host.Outcome State Fault Refusal :=
  .next (match s.bus.sending with
    | none => s
    | some a =>
      if inStart then
        (if slotsRead s = [] then
          spoilAttempt a
            (if s.bus.reading.isSome then
              { s with bus := { s.bus with reading := none, idleCount := min (s.bus.idleCount + 1) Config.idleSlots } }
            else s)
        else s)
      else if a.mismatch = false ∧ (heardBack s a).getD .mismatch = .mismatch then
        { s with bus := { s.bus with sending := some { a with mismatch := true }, drive := false, spoiling := true } }
      else s)

/-- The frame has been transmitted (R143, R157): its entry is removed, the quiet count of a MEMBER becomes 0, and the
producer acts by its kind. -/
def transmitted (a : Sending) (s : State) : State :=
  let removed := removeFrame a.ident (clearAttempts (attemptOver s))
  let told :=
    if removed.membership.state = .member then
      { removed with membership := { removed.membership with quiet := 0 } }
    else removed
  match a.payload with
  | .propose seq target .. => proposeTransmitted seq target told
  | .commit seq target => commitTransmitted seq target told
  | .leave _ => endLeaving told
  | _ => told

/-- FRAME_TRANSMITTED (R143): the spoil slot of the own frame reads recessive. An attempt with a mismatch is spoiled
whatever its spoil slot reads (R142). -/
def execFrameTransmitted (s : State) : Host.Outcome State Fault Refusal :=
  .next (match s.bus.sending with
    | none => s
    | some a =>
      if a.mismatch then spoilAttempt a (frameEnds s)
      else if (heardBack s a).getD .agrees = .agrees ∧ spoilRead (slotsRead s) ≠ some false then
        transmitted a (frameEnds s)
      else s)

/-- ATTEMPT_SPOILED (R143): the spoil slot of the own frame reads dominant. -/
def execAttemptSpoiled (s : State) : Host.Outcome State Fault Refusal :=
  .next (match s.bus.sending with
    | none => s
    | some a =>
      if a.mismatch ∨ spoilRead (slotsRead s) ≠ some true then spoilAttempt a (frameEnds s) else s)

/-- CD_FALL (R135, R136): outside a frame, a fall of CD is the START of a frame. DESIGN CHOICE: from that fall on the station
counts as in a frame, so a second fall before the START slot is read changes nothing (assumption 43). -/
def execCdFall (s : State) : Host.Outcome State Fault Refusal :=
  .next (if s.membership.state ≠ .idle ∧ s.bus.reading = none then
    { s with bus := { s.bus with slotTimer := 0, slotRead := false, reading := some (readingNow s) } }
  else s)

/-- A slot read outside a frame (R137). DEDUCED: the bus is idle from the reading clock of the sixth recessive slot, so that a
station that is a clock late can still join a START (R140; assumption 37). -/
def slotOutside (cd : Level) (b : BusInterface) : BusInterface :=
  { b with idleCount := match cd with
    | .low => 0
    | .high => min (b.idleCount + 1) Config.idleSlots }

/-- A slot read in a frame (R136): a recessive START was a glitch. DESIGN CHOICE: after a glitch the slots go on from its fall,
where the slot timer was set (assumption 36). -/
def slotInside (cd : Level) (r : Reading) (b : BusInterface) : BusInterface :=
  if r.slots.isEmpty && cd == .high then slotOutside cd { b with reading := none }
  else { b with reading := some { r with slots := r.slots ++ [cd == .high] } }

/-- SLOT_READING (R135 to R137): CD is read at the clock floor(D/2) of the slot, once per slot. -/
def execSlotReading (cd : Level) (s : State) : Host.Outcome State Fault Refusal :=
  .next (if s.membership.state ≠ .idle ∧ s.bus.slotTimer = s.profile.slotDivider / 2 ∧ s.bus.slotRead = false then
    let timed := { s.bus with slotRead := true }
    { s with bus := match s.bus.reading with
      | none => slotOutside cd timed
      | some r => slotInside cd r timed }
  else s)

end Sys2Proof.Machine
end

