-- ==== Sys2Proof/Machine/Clock.lean ====
section
/-! DEFINITION. The reference clock (R181): CARRIER_SAMPLE, on which the carrier and every other count of time in the station
go on, a slot of CD ends, and the pins of the local port are read. -/

namespace Sys2Proof.Machine

/-- The epoch phase over one reference clock (R29). Where it would pass L − 1 the boundary is due, and the phase waits for it,
which is EPOCH_BOUNDARY (assumption 3). -/
def clockGrid (p : Profile) (g : Grid) : Grid :=
  if g.phase + 1 < epochLength p then { g with phase := g.phase + 1 } else { g with due := true }

/-- The Epoch Timer over one reference clock. -/
def clockTimer (p : Profile) (t : EpochTimer) : EpochTimer := { t with grid := t.grid.map (clockGrid p) }

/-- The span timers of the Membership Controller over one reference clock (R90, R96, R98, R107). A timer that has reached
its span waits there for the event of its end (assumption 3). -/
def clockMembership (p : Profile) (m : Membership) : Membership :=
  match m.state with
  | .listen => { m with listenTimer := min (m.listenTimer + 1) (listenSpan p) }
  | .forming =>
    { m with
      repeatTimer := min (m.repeatTimer + 1) (listenSpan p)
      slowTimer := if m.slowPosted then m.slowTimer else min (m.slowTimer + 1) (Config.slowSpans * listenSpan p) }
  | .aligning => { m with alignTimer := min (m.alignTimer + 1) (listenSpan p) }
  | _ => m

/-- What the station drives on CD from the edge of the slot that is about to be read: the slot of its own frame, or, after a
mismatch, the spoil slot of that frame as read (R140, R142). A receiver that fails a frame drives its spoil slot by FRAME_FAILED
at that edge (R145, R146). -/
def driveAtEdge (s : State) : Bool :=
  match s.bus.reading with
  | none => false
  | some r =>
    (s.bus.spoiling && spoilPlace r.slots == some r.slots.length) ||
    (match s.bus.sending with
      | some a => !a.mismatch && (frameSlots (ownNumber s) a.payload)[r.slots.length]? == some false
      | none => false)

/-- Whether the spoil slot of the frame being read has been read (R145). -/
def spoilSlotRead (s : State) : Bool := s.bus.reading.any fun r => (spoilRead r.slots).isSome

/-- Whether the slot ends with this reference clock: slots of D clocks follow one another while the Bus Interface runs
(R135). -/
def slotEnds (s : State) : Bool :=
  s.membership.state != .idle && decide (s.profile.slotDivider ≤ s.bus.slotTimer + 1)

/-- The Bus Interface at the edge of a slot: a frame ends after its fourth END slot, with an idle count of 0 (R136, R137), and
CD takes the level of the slot that begins (R140). -/
def busAtEdge (s : State) : BusInterface :=
  let edge := { s.bus with
    slotTimer := 0, slotRead := false, drive := driveAtEdge s
    withdrawAsked := s.bus.withdrawAsked && !spoilSlotRead s }
  if s.bus.reading.any fun r => framingDone r.slots then
    { edge with reading := none, idleCount := 0, spoiling := false }
  else edge

/-- The Bus Interface over one reference clock (R135). In IDLE it is stopped. -/
def clockBus (s : State) : BusInterface :=
  if slotEnds s then busAtEdge s
  else if s.membership.state = .idle then s.bus
  else { s.bus with slotTimer := s.bus.slotTimer + 1 }

/-- A running transaction at a clock with LSEL low: LDI is shifted in on a rise of LCLK, and the falls of LCLK after the 00h
byte of a read transaction are counted (R172, R173). -/
def clockBit (pins : Pins) (p : LocalPort) : LocalPort :=
  match p.lclk, pins.lclk with
  | .low, .high => { p with shifted := p.shifted ++ [pins.ldi == .high] }
  | .high, .low => if isReadTransaction p.shifted then { p with sent := p.sent + 1 } else p
  | _, _ => p

/-- The transaction over one reference clock (R172). A fall of LSEL begins one; a rise is seen when LSEL is high for the
second clock, and the request of a write transaction has then arrived. DESIGN CHOICE: an edge of LCLK at the clock at which
the fall of LSEL is seen shifts nothing, and neither does one at a clock with LSEL high (assumption 40); a fall of LSEL at the
clock at which RSTN is first seen high begins a transaction like any other (assumption 41). -/
def clockTransaction (pins : Pins) (p : LocalPort) : LocalPort :=
  match p.transaction, pins.lsel with
  | .closed, .high => p
  | .closed, .low => { LocalPort.closed with transaction := .running }
  | .running, .low => clockBit pins { p with high := 0 }
  | .running, .high =>
    if p.high = 0 then { p with high := 1 }
    else { LocalPort.closed with arrived := transactionCommand (shiftedBytes p.shifted) }
  | .void, .low => { p with high := 0 }
  | .void, .high => if p.high = 0 then { p with high := 1 } else LocalPort.closed

/-- The serial side of the local port over one reference clock (R172, R173). A request that arrived at an earlier clock is no
longer to be taken. -/
def clockPort (pins : Pins) (p : LocalPort) : LocalPort :=
  { clockTransaction pins { p with arrived := none } with lclk := pins.lclk }

/-- The serial side of the local port while RSTN is low: it takes nothing, and a transaction whose LSEL is low at the last clock
with RSTN low is void (R172, R180). DESIGN CHOICE: a fall of LSEL first seen at the clock at which RSTN is first seen high begins a
transaction that counts (assumption 41). -/
def portInReset (lsel lclk : Level) : LocalPort :=
  { LocalPort.closed with lclk := lclk, transaction := if lsel = .low then .void else .closed }

/-- The station in power-on reset (R180): every item at its reset value. What the outside drives and the waiting commands are
not the station's. -/
def inReset (rstn : Level) (port : LocalPort) (s : State) : State :=
  { State.reset with resetPin := rstn, localPort := port, inputs := s.inputs, pending := s.pending }

/-- One reference clock of a station that runs: the carrier and every count of reference clocks go on by one. -/
def tick (s : State) : State :=
  { s with
    carrier := clockCarrier s
    timer := clockTimer s.profile s.timer
    membership := clockMembership s.profile s.membership
    bus := clockBus s
    localPort := clockPort (pinsNow s) s.localPort
    resetPin := .high
    inputs := s.inputs.tail
    clock := s.clock + 1 }

/-- CARRIER_SAMPLE (R73, R74, R81): one reference clock. The carrier computes and shows its sample, and every count of
reference clocks goes on by one (R29, R90, R96, R98, R107, R135, R181). At the end of the spoil slot of a frame it failed, the
station takes the withdrawal that its CHECK count asked for (R163). DESIGN CHOICE: that withdrawal comes before every other event
of the clock at which the slot ends, before a boundary that comes due there too, so an armed order does not fire there (R64;
assumption 42). At a clock with RSTN low the station is in power-on reset and nothing counts (R180). -/
def execCarrierSample (s : State) : Host.Outcome State Fault Refusal :=
  .next (match (pinsNow s).rstn with
    | .low => inReset .low (portInReset (pinsNow s).lsel (pinsNow s).lclk) { s with inputs := s.inputs.tail }
    | .high => withdrawIf (slotEnds s && s.bus.withdrawAsked && spoilSlotRead s) (tick s))

end Sys2Proof.Machine
end

