-- ==== Sys2Proof/Machine/EpochPoints.lean ====
section
/-! DEFINITION. The named points of the epoch phase (chapters 2 and 3, section 7.6): EPOCH_BOUNDARY, MARK_RELEASE,
VETO_POINT, VETO_SAMPLE and VETO_RELEASE. A point is taken while the counter is present and the phase is at it (R31, R32);
the boundary is taken when the phase would pass L − 1 (R29). -/

namespace Sys2Proof.Machine

/-- Whether a named point is to be taken now: the phase is at it (R31), and it has not been taken yet (assumption 6). -/
def pointReached (g : Grid) (point : Nat) : Bool := decide (g.point < point) && g.phase == point

/-- The state with a named point recorded as taken. -/
def atPoint (g : Grid) (point : Nat) (s : State) : State :=
  { s with timer := { s.timer with grid := some { g with point := point } } }

/-- The lead measured at the own pull (R43): 0 when CH was high until the pull, the distance back to the last fall in the
window, or L/8 when CH was low from before the window. -/
def measuredLead (ch : Level) (s : State) : Nat :=
  match ch, s.timer.leadFall with
  | .high, _ => 0
  | .low, some fall => min (s.clock - fall) (eighth s.profile)
  | .low, none => eighth s.profile

/-- The timer's own action at a boundary (R29, R30, R35): the counter advances, the phase is 0, and in a mark epoch the
mark claim is taken and the measurement of the cycle begins. -/
def advanceEpoch (g : Grid) (ch : Level) (s : State) : State :=
  let counter := g.counter + 1
  let timer := { s.timer with grid := some ⟨counter, 0, 0, false⟩ }
  if isMarkEpoch s.profile counter then
    { s with timer :=
        { timer with
          claims := { timer.claims with mark := true }
          provisional := some ⟨counter, measuredLead ch s, none, none⟩ } }
  else { s with timer := timer }

/-- The vote close of the open ballot whose target is counter + C (R12). -/
def voteClose (s : State) : State :=
  match (openBallots s).find? fun b => b.target - BitVec.ofNat 16 s.profile.commitLead == nowEpoch s with
  | none => s
  | some b =>
    match b.state with
    | .awaitingSend =>
      if proposeOnBus s b.seq b.target then
        purgeWhere (fun e => match e.payload with
          | .propose seq .. => seq == b.seq
          | _ => false) s
      else abortOwn b .unsent (ownNumber s) s
    | .collecting => abortOwn b .timeout (ownNumber s) s
    | .committing =>
      if commitOnBus s b.seq b.target then
        purgeWhere (fun e => match e.payload with
          | .commit seq _ => seq == b.seq
          | _ => false) s
      else abortOwn b .timeout (ownNumber s) s

/-- Whether a fired order is applied at this station (R61). -/
def appliesHere (s : State) (o : Order) : Bool :=
  inMask o.mask s.profile.group && gridState s.membership.state

/-- The set-synced indication of an applied order (R62). -/
def setsSynced (s : State) (o : Order) : Bool :=
  o.mode == .restart && (match s.membership.blindHorizon with
    | none => true
    | some h => aheadOf h o.target)

/-- The order whose target is the new counter fires if it is armed (R60), and is retired without being applied if it is
not (R63). -/
def fireDue (s : State) : State :=
  match orderWithTarget s (nowEpoch s) with
  | none => s
  | some o =>
    let applied := o.armed && appliesHere s o
    let fired := post (.orderFired o.id applied) (retireOrder o.id s)
    if applied then applyTone o.tone o.mode (setsSynced s o) fired else fired

/-- The blind horizon H is cleared at the boundary into H + 1 (R112). -/
def clearBlindHorizon (s : State) : State :=
  { s with membership :=
      { s.membership with blindHorizon := s.membership.blindHorizon.filter fun h => !(h + 1 == nowEpoch s) } }

/-- Whether a frame is an EPOCH of a mark epoch before the one just begun (R106). -/
def isStaleEpoch (now : Epoch) : Payload → Bool
  | .epoch mark _ _ => aheadOf mark now
  | _ => false

/-- Silence counting at a mark boundary (R130): every present entry rises by one, and those that reach S are lost, lowest
number first. -/
def countSilence (s : State) : State :=
  let risen := s.membership.roster.map fun e => if isPresent e then { e with silence := e.silence + 1 } else e
  let counted := { s with membership := { s.membership with roster := risen } }
  (allStations.filter fun n =>
    isPresent (risen.get n) && decide (s.profile.silenceLimit ≤ (risen.get n).silence)).foldl
    (fun t n => losePeer n .silent t) counted

/-- Whether a HELLO is waiting in the Transmit Queue. -/
def helloWaiting (s : State) : Bool :=
  s.queue.entries.any fun e => payloadKind e.payload == .hello && !inTransmission s e

/-- The quiet count at a mark boundary of a MEMBER, with the refresh HELLO(MEMBER) at S/2 or more (R131). -/
def countQuiet (s : State) : State :=
  if s.membership.state = .member then
    let counted := { s with membership :=
      { s.membership with quiet := min (s.membership.quiet + 1) s.profile.silenceLimit } }
    if decide (s.profile.silenceLimit / 2 ≤ counted.membership.quiet) && !helloWaiting counted then
      offer (ownHello .member s) counted
    else counted
  else s

/-- The member mark count at a mark boundary of a MEMBER (R118). -/
def countMemberMark (s : State) : State :=
  if s.membership.state = .member then
    let marks := min (s.membership.memberMarks + 1) Config.steadyMarks
    { s with membership :=
        { s.membership with
          memberMarks := marks
          withdrawals := if marks = Config.steadyMarks then 0 else s.membership.withdrawals } }
  else s

/-- What the Membership Controller does at a mark boundary (R106, R118, R130, R131). -/
def markBoundary (s : State) : State :=
  let emptied := { s with membership := { s.membership with runningMismatch := 0 } }
  let purged := purgeWhere (fun e => isStaleEpoch (nowEpoch s) e.payload) emptied
  countMemberMark (countQuiet (countSilence purged))

/-- EPOCH_BOUNDARY (R29, R30), when the boundary is due: the counter advances; then vote close, fire or retirement, blind
horizon, and in a mark epoch the membership actions, in that order (assumption 7). `ch` is the level of CH just before the station's own pull. -/
def execEpochBoundary (ch : Level) (s : State) : Host.Outcome State Fault Refusal :=
  .next (match s.timer.grid with
    | none => s
    | some g =>
      let acted := clearBlindHorizon (fireDue (voteClose (advanceEpoch g ch s)))
      if !g.due then s
      else if isMarkEpoch s.profile (g.counter + 1) then markBoundary acted
      else acted)

/-- Whether an EPOCH frame of this station is on the bus (R103). -/
def epochOnBus (s : State) : Bool := s.bus.sending.any fun a => payloadKind a.payload == .epoch

/-- A MEMBER offers the EPOCH frame of a mark epoch (R103). The horizon is filled at each START. -/
def offerEpoch (mark : Epoch) (s : State) : State :=
  if s.membership.state = .member ∧ ¬ epochOnBus s then offer (.epoch mark mark (digestOf s.profile)) s else s

/-- MARK_RELEASE (R35, R40, R44, R103): in a mark epoch whose claim the station holds, CH is read, the mark claim is
released, and a high reading is a hold fault; otherwise a MEMBER offers EPOCH. -/
def execMarkRelease (ch : Level) (s : State) : Host.Outcome State Fault Refusal :=
  .next (match s.timer.grid with
    | none => s
    | some g =>
      if s.timer.claims.mark ∧ pointReached g (releasePhase s.profile) then
        let there := atPoint g (releasePhase s.profile) s
        let released := { there with timer :=
          { there.timer with
            claims := { there.timer.claims with mark := false }
            provisional := there.timer.provisional.map fun r => { r with released := some s.clock } } }
        match ch with
        | .high => withdraw .holdFault { released with timer := { released.timer with provisional := none } }
        | .low => offerEpoch g.counter released
      else s)

/-- The Order Engine's answer at the veto point (R53). -/
def claimsVeto (o : Order) : Bool := o.state == .pending || o.vetoRequest

/-- VETO_POINT (R36, R44, R53): the veto claim is taken if the Order Engine answers so, and a lag still open is L/8. -/
def execVetoPoint (s : State) : Host.Outcome State Fault Refusal :=
  .next (match s.timer.grid with
    | none => s
    | some g =>
      if pointReached g (vetoPhase s.profile) then
        let claim := (orderWithTarget s (g.counter + 1)).any claimsVeto
        { s with timer :=
            { s.timer with
              grid := some { g with point := vetoPhase s.profile }
              claims := { s.timer.claims with veto := s.timer.claims.veto || claim }
              provisional := s.timer.provisional.map fun r =>
                { r with lag := some (r.lag.getD (eighth s.profile)) } } }
      else s)

/-- An order is retired VETOED (R56). -/
def vetoOrder (o : Order) (claimed : Bool) (s : State) : State :=
  post (.orderVetoed o.id claimed) (retireOrder o.id s)

/-- An order is armed (R57, R58). -/
def armOrder (o : Order) (s : State) : State := updateOrder o.id (fun x => { x with armed := true }) s

/-- The Order Engine's decision on the order of the next epoch (R55): a low line vetoes it, a high line arms it unless the
station's own claim stands (R59). -/
def decideOrder (ch : Level) (o : Order) (s : State) : State :=
  match ch with
  | .low => vetoOrder o s.timer.claims.veto s
  | .high => if s.timer.claims.veto then s else armOrder o s

/-- Admission on a kept reading (R114): a lead of at most W makes the station MEMBER, a larger one returns it to LISTEN. -/
def becomeMember (lead : Nat) (s : State) : State :=
  if lead ≤ s.profile.skewWindow then
    let member := { s with membership := { s.membership with state := .member, memberMarks := 0 } }
    let greeted := offer (ownHello .member s) member
    let joined := post (.joined lead) { greeted with membership := { greeted.membership with quiet := 0 } }
    postIfLive .blank joined
  else alignFailed (.lead lead) s

/-- A kept mark reading (R45, R46): it becomes the last mark reading; the skew check counts SKEW and posts SKEW_WIDE, and a
withdrawal it asks for comes before the admission of an ARRIVING station. -/
def keepReading (r : Provisional) (s : State) : State :=
  let lag := r.lag.getD (eighth s.profile)
  let kept := { s with timer := { s.timer with provisional := none, lastReading := some ⟨r.mark, r.lead, lag⟩ } }
  let checked :=
    if s.profile.skewWindow < r.lead + lag then
      let counted := countTally .skew kept
      withdrawIf counted.2 (post (.skewWide r.lead lag) counted.1)
    else kept
  if checked.membership.state = .arriving then becomeMember r.lead checked else checked

/-- The provisional reading of the present epoch at the veto sample is discarded after a stray hold and kept otherwise
(R45). -/
def settleReading (stray : Bool) (s : State) : State :=
  match s.timer.provisional with
  | none => s
  | some r =>
    if r.mark = nowEpoch s then
      (if stray then { s with timer := { s.timer with provisional := none } } else keepReading r s)
    else s

/-- VETO_SAMPLE (R38 to R40, R45, R46, R55): the reading of CH decides the order of the next epoch, shows a stray hold or
a hold fault, and keeps or discards the mark reading. R38 has every applying row done and gives them no order. DESIGN CHOICE:
the order is decided first, then the mark reading (assumption 32). -/
def execVetoSample (ch : Level) (s : State) : Host.Outcome State Fault Refusal :=
  .next (match s.timer.grid with
    | none => s
    | some g =>
      if pointReached g (samplePhase s.profile) then
        let there := atPoint g (samplePhase s.profile) s
        let due := orderWithTarget there (g.counter + 1)
        let decided := match due with
          | some o => decideOrder ch o there
          | none => there
        if s.timer.claims.veto && ch == .high then
          withdraw .holdFault { decided with timer := { decided.timer with provisional := none } }
        else
          let stray := due.isNone && !s.timer.claims.veto && ch == .low
          let counted := if stray then countTally .stray decided else (decided, false)
          withdrawIf counted.2 (settleReading stray counted.1)
      else s)

/-- VETO_RELEASE (R36, R43): the veto claim is released and the lead window of the next measurement opens. -/
def execVetoRelease (s : State) : Host.Outcome State Fault Refusal :=
  .next (match s.timer.grid with
    | none => s
    | some g =>
      if pointReached g (vetoReleasePhase s.profile) then
        { s with timer :=
            { s.timer with
              grid := some { g with point := vetoReleasePhase s.profile }
              claims := { s.timer.claims with veto := false }
              leadFall := none } }
      else s)

end Sys2Proof.Machine
end

