-- ==== Sys2Proof/Machine/HoldLine.lean ====
section
/-! DEFINITION. The edges of CH (chapter 2): MARK_LAG_RISE, FORMATION_RISE, FORMATION_HOLD_FAULT, ALIGNMENT_PULSE_END and
CH_FALL. The times of the edges are read from `clock`. -/

namespace Sys2Proof.Machine

/-- MARK_LAG_RISE (R44): the first rise of CH at or after the own mark release fixes the lag, at most L/8. -/
def execMarkLagRise (s : State) : Host.Outcome State Fault Refusal :=
  .next (match s.timer.provisional with
    | some ⟨mark, lead, some released, none⟩ =>
      let lag := min (s.clock - released) (eighth s.profile)
      { s with timer := { s.timer with provisional := some ⟨mark, lead, some released, some lag⟩ } }
    | _ => s)

/-- The Roster at the formation rise (R101): every station of the formation set but this one is MEMBER. -/
def rosterFromFormation (own : StationNo) (f : Table (Option Group) 32) : Table RosterEntry 32 :=
  f.mapWith fun n g => match g with
    | some g => if n = own.val then RosterEntry.absent else ⟨.member, some g, 0⟩
    | none => RosterEntry.absent

/-- The peers held as MEMBER. -/
def memberCount (r : Table RosterEntry 32) : Nat := (r.items.filter fun e => e.presence == .member).length

/-- FORMATION_RISE (R48, R79, R101): at a FORMING station that has released its claim, the counter and phase are 0, the
formation set becomes the Roster, the station is MEMBER on the rest tone, and FORMED and LIVE are posted. -/
def execFormationRise (s : State) : Host.Outcome State Fault Refusal :=
  .next (if s.membership.state = .forming ∧ s.timer.claims.formation = false then
    let roster := rosterFromFormation (ownNumber s) s.membership.formation
    let risen := dropFormingHello { s with
      timer := { timerCleared s.timer with grid := some ⟨0, 0, 0, false⟩ }
      membership := { membershipCleared .member s.membership with roster := roster } }
    let toned := { risen with carrier := takeTone 0 .restart true risen.carrier }
    postIfLive .blank (post (.formed (memberCount roster + 1)) toned)
  else s)

/-- FORMATION_HOLD_FAULT (R41): CH reads high while the formation claim stands. -/
def execFormationHoldFault (s : State) : Host.Outcome State Fault Refusal :=
  .next (if s.membership.state = .forming ∧ s.timer.claims.formation = true then withdraw .holdFault s else s)

/-- Whether a pulse of a length is a mark pulse (R49). -/
def isMarkPulse (p : Profile) (length : Nat) : Bool :=
  decide (releasePhase p ≤ length + p.skewWindow) && decide (length ≤ releasePhase p + p.skewWindow)

/-- The pulse kept for a late alignment (R51) once a mark pulse has ended that does not qualify against the reference held: the
first one that fell after the START of the frame being read. A frame that begins later begins after the fall, so no pulse is
kept for it. -/
def keptPulse (fall : Nat) (s : State) : Option Nat :=
  match s.bus.reading with
  | none => none
  | some r =>
    if r.start < fall then some ((s.timer.endedPulse.filter fun first => decide (r.start < first)).getD fall) else none

/-- ALIGNMENT_PULSE_END (R49, R50): the low pulse in progress ends. A mark pulse that fell after the START of the
reference frame aligns the station, with the boundary at the fall. A mark pulse that does not qualify is kept for an
EPOCH frame still being read (R51). A pulse whose fall was not seen is ignored. -/
def execAlignmentPulseEnd (s : State) : Host.Outcome State Fault Refusal :=
  .next (if s.membership.state = .aligning then
    match s.timer.pulseFall with
    | none => s
    | some fall =>
      let ended := { s with timer := { s.timer with pulseFall := none } }
      if isMarkPulse s.profile (s.clock - fall) then
        match s.timer.reference with
        | some r =>
          if r.start < fall then
            align (r.mark + BitVec.ofNat 16 (markInterval s.profile)) (s.clock - fall) ended
          else { ended with timer := { ended.timer with endedPulse := keptPulse fall s } }
        | none => { ended with timer := { ended.timer with endedPulse := keptPulse fall s } }
      else ended
  else s)

/-- CH_FALL (R43, R49): the clock of a fall of CH is recorded, in ALIGNING as the start of the measured pulse, in ARRIVING
and MEMBER as the last fall of the lead window. -/
def execChFall (s : State) : Host.Outcome State Fault Refusal :=
  .next (match s.membership.state with
    | .aligning => { s with timer := { s.timer with pulseFall := some s.clock } }
    | .arriving => { s with timer := { s.timer with leadFall := some s.clock } }
    | .member => { s with timer := { s.timer with leadFall := some s.clock } }
    | _ => s)

end Sys2Proof.Machine
end

