-- ==== Sys2Proof/Machine/Requests.lean ====
section
/-! DEFINITION. The reset pin and the requests of the local port (chapter 11 and the rules that own each request). Every
request places its response in the response buffer (R172), if it can be taken (`takesRequest`). -/

namespace Sys2Proof.Machine

/-- POWER_ON_RESET (R180): every item at its reset value. The reset lasts while the coming clocks have RSTN low. A transaction
that runs at the reset is void (R172). -/
def execPowerOnReset (s : State) : Host.Outcome State Fault Refusal :=
  .next (inReset (pinsNow s).rstn
    (portInReset (if s.localPort.transaction = .closed then .high else .low) s.localPort.lclk) s)

/-- LOAD_PARAMETER (R177): range, then state, then the load. -/
def execLoadParameter (id : Byte) (value : BitVec 24) (s : State) : Host.Outcome State Fault Refusal :=
  .next (taking (.loadParameter id value) s (if !parameterInRange id.toNat value.toNat then respond 0x01 .badRequest [] s
    else if s.membership.state ≠ .idle then respond 0x01 .busy [] s
    else respond 0x01 .ok [] { s with profile := setParameter s.profile id.toNat value.toNat }))

/-- LOAD_TONE (R71): range, then state, then the load. -/
def execLoadTone (index : Byte) (frequency : BitVec 32) (offset amplitude : BitVec 16) (s : State) :
    Host.Outcome State Fault Refusal :=
  .next (taking (.loadTone index frequency offset amplitude) s (match below 64 index.toNat with
    | none => respond 0x02 .badRequest [] s
    | some i =>
      if 4095 < amplitude.toNat then respond 0x02 .badRequest [] s
      else if s.membership.state ≠ .idle then respond 0x02 .busy [] s
      else respond 0x02 .ok [] { s with carrier :=
        { s.carrier with tones := s.carrier.tones.set i ⟨frequency, offset, amplitude.setWidth 12, true⟩ } }))

/-- CLEAR_TONE (R72). -/
def execClearTone (index : Byte) (s : State) : Host.Outcome State Fault Refusal :=
  .next (taking (.clearTone index) s (match below 64 index.toNat with
    | none => respond 0x03 .badRequest [] s
    | some i =>
      if s.membership.state ≠ .idle then respond 0x03 .busy [] s
      else respond 0x03 .ok [] { s with carrier :=
        { s.carrier with tones := s.carrier.tones.set i ToneEntry.invalid } }))

/-- START (R88): an IDLE station with a valid rest tone enters LISTEN; the consecutive-withdrawal count becomes 0. -/
def execStart (s : State) : Host.Outcome State Fault Refusal :=
  .next (taking .start s (if s.membership.state ≠ .idle then respond 0x04 .busy [] s
    else if !(toneAt s 0).valid then refuseRequest 0x04 .noRestTone s
    else respond 0x04 .ok []
      (enterListen true { s with membership := { s.membership with withdrawals := 0 }, bus := busStopped })))

/-- STOP (R89). -/
def execStop (s : State) : Host.Outcome State Fault Refusal :=
  .next (taking .stop s (respond 0x05 .ok [] (match s.membership.state with
    | .idle => s
    | .listen => enterIdle s
    | .aligning => enterIdle s
    | .forming => withdraw .stop s
    | .arriving => withdraw .stop s
    | .member => withdraw .stop s
    | .leaving =>
      { s with membership :=
        { s.membership with leaving := s.membership.leaving.map fun l => { l with destination := .idle } } })))

/-- RESTART (R179): IDLE at once; the carrier is reset, the consecutive-withdrawal count becomes 0 and the last mark
reading absent. -/
def execRestart (s : State) : Host.Outcome State Fault Refusal :=
  let idled := carrierReset (enterIdle s)
  .next (taking .restart s (respond 0x06 .ok []
    { idled with
      membership := { idled.membership with withdrawals := 0 }
      timer := { idled.timer with lastReading := none } }))

/-- The next sequence value: the first above the counter that no own order in the Schedule uses (R5). -/
def nextSequence (s : State) : Seq :=
  (((List.range 17).map fun k => s.orders.sequence + BitVec.ofNat 8 (k + 1)).find?
    fun q => !(liveOrders s).any fun o => o.id == ownId s q).getD (s.orders.sequence + 1)

/-- The QUEUE_FULL check of SUBMIT (R6): 8 frames held, none of kind EPOCH, HELLO or LEAVE. -/
def queueFull (s : State) : Bool :=
  decide (Config.queuePlaces ≤ s.queue.entries.length) &&
    s.queue.entries.all fun e => decide (kindCode (payloadKind e.payload) < kindCode .epoch)

/-- The first check of SUBMIT that fails at a MEMBER, in the order of R6. -/
def submitRefusal (s : State) (target : Epoch) (mask : Byte) (tone : Option ToneIndex) (mode : Option PhaseMode) :
    Option RefusalReason :=
  match tone, mode with
  | some i, some _ =>
    if mask = 0 then some .badArgument
    else if !leadAccepted s (nowEpoch s) target then some .late
    else if 4 ≤ (openBallots s).length then some .ballotsFull
    else if 16 ≤ (liveOrders s).length then some .scheduleFull
    else if (orderWithTarget s target).isSome then some .clash
    else if lacksTone s mask i then some .noTone
    else if queueFull s then some .queueFull
    else none
  | _, _ => some .badArgument

/-- An accepted SUBMIT (R6): sequence, order record, ballot, PROPOSE, response. -/
def submitOrder (target : Epoch) (mask : GroupMask) (tone : ToneIndex) (mode : PhaseMode) (s : State) : State :=
  let seq := nextSequence s
  let taken := { s with orders :=
    { schedule := s.orders.schedule.putFirstFree ⟨ownId s seq, target, mask, tone, mode, .pending, .none, false, false⟩
      ballots := s.orders.ballots.putFirstFree ⟨seq, target, 0, 0, .awaitingSend⟩
      sequence := seq } }
  respond 0x07 .ok [seq] (offer (.propose seq target mask tone mode) taken)

/-- SUBMIT (R6). -/
def execSubmit (target : Epoch) (mask tone mode : Byte) (s : State) : Host.Outcome State Fault Refusal :=
  .next (taking (.submit target mask tone mode) s (if s.membership.state ≠ .member then refuseRequest 0x07 .notMember s
    else match submitRefusal s target mask (below 64 tone.toNat) (phaseModeOf mode.toNat) with
      | some reason => refuseRequest 0x07 reason s
      | none =>
        match below 64 tone.toNat, phaseModeOf mode.toNat with
        | some i, some m => submitOrder target mask i m s
        | _, _ => refuseRequest 0x07 .badArgument s))

/-- WITHDRAW (R14). -/
def execWithdraw (seq : Byte) (s : State) : Host.Outcome State Fault Refusal :=
  .next (taking (.withdraw seq) s (if s.membership.state ≠ .member then refuseRequest 0x08 .notMember s
    else match ballotWithSeq s seq with
      | some b =>
        if b.state = .committing ∧ commitOnBus s b.seq b.target then refuseRequest 0x08 .tooLate s
        else respond 0x08 .ok [] (abortOwn b .withdrawn (ownNumber s) s)
      | none =>
        if (orderWithId s (ownId s seq)).isSome then refuseRequest 0x08 .tooLate s
        else refuseRequest 0x08 .notHeld s))

/-- Whether the veto point of an order's last epoch has been taken, so that a VETO comes too late (R65, R66). -/
def vetoTooLate (s : State) (target : Epoch) : Bool :=
  s.timer.grid.any fun g =>
    epochDistance g.counter target == 1 &&
      (decide (vetoPhase s.profile < g.phase) || decide (vetoPhase s.profile ≤ g.point))

/-- VETO (R65, R66). -/
def execVeto (origin seq : Byte) (s : State) : Host.Outcome State Fault Refusal :=
  .next (taking (.veto origin seq) s (match below 32 origin.toNat with
    | none => respond 0x09 .badRequest [] s
    | some n =>
      if !gridState s.membership.state then refuseRequest 0x09 .notMember s
      else match orderWithId s ⟨n, seq⟩ with
        | none => refuseRequest 0x09 .notHeld s
        | some o =>
          if vetoTooLate s o.target then refuseRequest 0x09 .tooLate s
          else respond 0x09 .ok [] (updateOrder ⟨n, seq⟩ (fun x => { x with vetoRequest := true }) s)))

/-- READ_STATUS (R175). -/
def execReadStatus (s : State) : Host.Outcome State Fault Refusal :=
  .next (taking .readStatus s (respond 0x0A .ok (statusBytes s) s))

/-- READ_ROSTER (R134). -/
def execReadRoster (s : State) : Host.Outcome State Fault Refusal :=
  .next (taking .readRoster s (respond 0x0B .ok (rosterBytes s) s))

/-- READ_ORDER (R28). -/
def execReadOrder (slot : Byte) (s : State) : Host.Outcome State Fault Refusal :=
  .next (taking (.readOrder slot) s (match below 16 slot.toNat with
    | none => respond 0x0C .badRequest [] s
    | some i =>
      match s.orders.schedule.get i with
      | none => respond 0x0C .empty [] s
      | some o => respond 0x0C .ok (orderBytes o) s))

/-- READ_BALLOT (R28). -/
def execReadBallot (slot : Byte) (s : State) : Host.Outcome State Fault Refusal :=
  .next (taking (.readBallot slot) s (match below 4 slot.toNat with
    | none => respond 0x0D .badRequest [] s
    | some i =>
      match s.orders.ballots.get i with
      | none => respond 0x0D .empty [] s
      | some b => respond 0x0D .ok (ballotBytes b) s))

/-- READ_TALLIES (R165). -/
def execReadTallies (s : State) : Host.Outcome State Fault Refusal :=
  .next (taking .readTallies s (respond 0x0E .ok (tallyBytes s.monitor) s))

/-- CLEAR_TALLIES (R164). -/
def execClearTallies (s : State) : Host.Outcome State Fault Refusal :=
  .next (taking .clearTallies s (respond 0x0F .ok []
    { s with monitor := { s.monitor with tallies := Tallies.zero, overflow := 0 } }))

/-- TAKE_NOTICE (R169). -/
def execTakeNotice (s : State) : Host.Outcome State Fault Refusal :=
  .next (taking .takeNotice s (match s.monitor.notices with
    | [] => respond 0x10 .empty [] s
    | n :: rest => respond 0x10 .ok (noticeBytes n) { s with monitor := { s.monitor with notices := rest } }))

/-- BAD_REQUEST (R174): a write transaction of wrong form is answered and has no other effect. Code 00h is a read
transaction, which changes no state (R172, R173). -/
def execBadRequest (code : Byte) (s : State) : Host.Outcome State Fault Refusal :=
  .next (taking (.badRequest code) s (if code = 0 then s else respond code .badRequest [] s))

end Sys2Proof.Machine
end

