-- ==== Sys2Proof/Machine/Spans.lean ====
section
/-! DEFINITION. The ends of the spans the Membership Controller times: LISTEN_SPAN_END, ALIGNMENT_SPAN_END,
HELLO_FORMING_REPEAT and FORMATION_SLOW. Each acts when its timer has reached its span. -/

namespace Sys2Proof.Machine

/-- A new span in LISTEN (R90, R92). -/
def newListenSpan (s : State) : State :=
  { s with membership := { s.membership with listenTimer := 0, cohortSeen := false, mismatch := 0 } }

/-- LISTEN_SPAN_END (R92): a station that heard a mismatched EPOCH listens on, any other enters FORMING alone. -/
def execListenSpanEnd (s : State) : Host.Outcome State Fault Refusal :=
  .next (if s.membership.state = .listen ∧ s.membership.listenTimer = listenSpan s.profile then
    (if s.membership.cohortSeen then newListenSpan s else enterForming none s)
  else s)

/-- ALIGNMENT_SPAN_END (R109). -/
def execAlignmentSpanEnd (s : State) : Host.Outcome State Fault Refusal :=
  .next (if s.membership.state = .aligning ∧ s.membership.alignTimer = listenSpan s.profile then
    alignFailed .noMark s
  else s)

/-- HELLO_FORMING_REPEAT (R93, R96): HELLO(FORMING) is queued again, the repeat timer starts from 0 and the mismatch record
is emptied. -/
def execHelloFormingRepeat (s : State) : Host.Outcome State Fault Refusal :=
  .next (if s.membership.state = .forming ∧ s.membership.repeatTimer = listenSpan s.profile then
    offer (ownHello .forming s) { s with membership := { s.membership with repeatTimer := 0, mismatch := 0 } }
  else s)

/-- FORMATION_SLOW (R98): posted once for each entry to FORMING. -/
def execFormationSlow (s : State) : Host.Outcome State Fault Refusal :=
  .next (if s.membership.state = .forming ∧ s.membership.slowPosted = false ∧
      s.membership.slowTimer = Config.slowSpans * listenSpan s.profile then
    post (.formationSlow (formationSize s.membership.formation))
      { s with membership := { s.membership with slowPosted := true } }
  else s)

end Sys2Proof.Machine
end

