-- ==== Sys2Proof/Machine/Dispatch.lean ====
section
/-! DEFINITION. The effect of a command on everything but the queue of waiting commands: one arm for each command, in the
order of spec/opcode_table.json. -/

namespace Sys2Proof.Machine

def exec (i : Instr) (s : State) : Host.Outcome State Fault Refusal :=
  match i with
  | .powerOnReset => Sys2Proof.Machine.execPowerOnReset s
  | .loadParameter id value => Sys2Proof.Machine.execLoadParameter id value s
  | .loadTone index frequency offset amplitude => Sys2Proof.Machine.execLoadTone index frequency offset amplitude s
  | .clearTone index => Sys2Proof.Machine.execClearTone index s
  | .start => Sys2Proof.Machine.execStart s
  | .stop => Sys2Proof.Machine.execStop s
  | .restart => Sys2Proof.Machine.execRestart s
  | .submit target mask tone mode => Sys2Proof.Machine.execSubmit target mask tone mode s
  | .withdraw seq => Sys2Proof.Machine.execWithdraw seq s
  | .veto origin seq => Sys2Proof.Machine.execVeto origin seq s
  | .readStatus => Sys2Proof.Machine.execReadStatus s
  | .readRoster => Sys2Proof.Machine.execReadRoster s
  | .readOrder slot => Sys2Proof.Machine.execReadOrder slot s
  | .readBallot slot => Sys2Proof.Machine.execReadBallot slot s
  | .readTallies => Sys2Proof.Machine.execReadTallies s
  | .clearTallies => Sys2Proof.Machine.execClearTallies s
  | .takeNotice => Sys2Proof.Machine.execTakeNotice s
  | .badRequest code => Sys2Proof.Machine.execBadRequest code s
  | .carrierSample => Sys2Proof.Machine.execCarrierSample s
  | .epochBoundary ch => Sys2Proof.Machine.execEpochBoundary ch s
  | .markRelease ch => Sys2Proof.Machine.execMarkRelease ch s
  | .vetoPoint => Sys2Proof.Machine.execVetoPoint s
  | .vetoSample ch => Sys2Proof.Machine.execVetoSample ch s
  | .vetoRelease => Sys2Proof.Machine.execVetoRelease s
  | .markLagRise => Sys2Proof.Machine.execMarkLagRise s
  | .formationRise => Sys2Proof.Machine.execFormationRise s
  | .formationHoldFault => Sys2Proof.Machine.execFormationHoldFault s
  | .alignmentPulseEnd => Sys2Proof.Machine.execAlignmentPulseEnd s
  | .listenSpanEnd => Sys2Proof.Machine.execListenSpanEnd s
  | .alignmentSpanEnd => Sys2Proof.Machine.execAlignmentSpanEnd s
  | .helloFormingRepeat => Sys2Proof.Machine.execHelloFormingRepeat s
  | .formationSlow => Sys2Proof.Machine.execFormationSlow s
  | .proposeAccepted sender seq target mask tone mode => Sys2Proof.Machine.execProposeAccepted sender seq target mask tone mode s
  | .voteAccepted voter origin seq verdict => Sys2Proof.Machine.execVoteAccepted voter origin seq verdict s
  | .commitAccepted sender seq target => Sys2Proof.Machine.execCommitAccepted sender seq target s
  | .abortAccepted sender seq target reason refuser => Sys2Proof.Machine.execAbortAccepted sender seq target reason refuser s
  | .epochAccepted sender mark horizon digest => Sys2Proof.Machine.execEpochAccepted sender mark horizon digest s
  | .helloAccepted sender state group digest => Sys2Proof.Machine.execHelloAccepted sender state group digest s
  | .leaveAccepted sender reason => Sys2Proof.Machine.execLeaveAccepted sender reason s
  | .frameFailed => Sys2Proof.Machine.execFrameFailed s
  | .receiveError => Sys2Proof.Machine.execReceiveError s
  | .attemptStart => Sys2Proof.Machine.execAttemptStart s
  | .arbitrationLost => Sys2Proof.Machine.execArbitrationLost s
  | .bitMonitorMismatch atStart => Sys2Proof.Machine.execBitMonitorMismatch atStart s
  | .frameTransmitted => Sys2Proof.Machine.execFrameTransmitted s
  | .attemptSpoiled => Sys2Proof.Machine.execAttemptSpoiled s
  | .cdFall => Sys2Proof.Machine.execCdFall s
  | .slotReading cd => Sys2Proof.Machine.execSlotReading cd s
  | .chFall => Sys2Proof.Machine.execChFall s
  | .spoiledFrame => Sys2Proof.Machine.execSpoiledFrame s

end Sys2Proof.Machine
end

