-- ==== Sys2Proof/Machine/Step.lean ====
section
/-! DEFINITION. One step of the station: the command at the front of the queue of waiting commands (assumption 1). -/

namespace Sys2Proof.Machine

/-- One step: the first waiting command is taken from the queue and carried out. With no command waiting the block idles:
every count of time in the station is a count of reference clocks, and a reference clock is itself a command,
CARRIER_SAMPLE. -/
def step (s : State) : Host.Outcome State Fault Refusal :=
  match s.pending with
  | [] => .next s
  | c :: rest => exec c { s with pending := rest }

/-- The state with the command that a table word spells put at the front of the queue; unchanged where the word spells
none. -/
def State.withFetchWord (s : State) (nbits w : Nat) : State :=
  match decodeTableWord nbits w with
  | some c => { s with pending := c :: s.pending }
  | none => s

end Sys2Proof.Machine
end

