-- ==== Sys2Proof/Safety.lean ====
section
/-! DEFINITION. What holds of a station at every moment: the ranges of its counts, what each station state may hold, and how
its tables agree with one another. The statements about every step are in these terms. -/

namespace Sys2Proof.Machine

/-- The value the profile holds for a parameter id (R176); 0 for an id that names no parameter. -/
def parameterValue (p : Profile) (id : Nat) : Nat :=
  match id with
  | 1 => p.epochExp
  | 2 => p.markExp
  | 3 => p.commitLead
  | 4 => p.expected
  | 5 => p.slotDivider
  | 6 => p.silenceLimit
  | 7 => p.skewWindow
  | 8 => p.listenFactor
  | 9 => p.station.val
  | 10 => p.group.val
  | 11 => p.outputDelay
  | 12 => p.threshold
  | 13 => p.withdrawMask.toNat
  | 14 => p.noticeMask.toNat
  | 15 => p.rejoinLimit
  | _ => 0

/-- Every parameter is in its range (R176). -/
abbrev ProfileInRange (s : State) : Prop :=
  ∀ id ∈ List.range' 1 15, parameterInRange id (parameterValue s.profile id) = true

/-- The tallies and the overflow count are at most 255, and at most 16 notices wait (R161, R168). -/
abbrev MonitorBounded (s : State) : Prop :=
  s.monitor.notices.length ≤ 16 ∧ s.monitor.overflow ≤ 255 ∧
  s.monitor.tallies.check ≤ 255 ∧ s.monitor.tallies.spoil ≤ 255 ∧ s.monitor.tallies.drop ≤ 255 ∧
  s.monitor.tallies.stray ≤ 255 ∧ s.monitor.tallies.skew ≤ 255 ∧ s.monitor.tallies.disagree ≤ 255

/-- The epoch counter is present exactly in ARRIVING and MEMBER (R29), each claim stands only in its states (R33), and the
transient records of the Epoch Timer exist only where they are measured (R49, R52). -/
abbrev TimerFollowsState (s : State) : Prop :=
  s.timer.grid.isSome = gridState s.membership.state ∧
  (s.timer.claims.formation = true → s.membership.state = .forming) ∧
  (s.timer.claims.mark = true ∨ s.timer.claims.veto = true ∨ s.timer.provisional.isSome = true ∨
    s.timer.leadFall.isSome = true → gridState s.membership.state = true) ∧
  (s.timer.reference.isSome = true ∨ s.timer.pulseFall.isSome = true ∨ s.timer.endedPulse.isSome = true →
    s.membership.state = .aligning)

/-- The epoch phase is in 0..L − 1 (R29), no point is taken ahead of the phase, and a boundary is due only where the phase has
reached L − 1. -/
abbrev GridInRange (s : State) : Prop :=
  ∀ g ∈ s.timer.grid, g.phase < epochLength s.profile ∧ g.point ≤ g.phase ∧
    (g.due = true → g.phase = epochLength s.profile - 1)

/-- Outside ALIGNING, ARRIVING and MEMBER the Schedule and the Roster are empty (R85), the own Roster entry is always ABSENT
(R121), ballots are open only in MEMBER (R7, R27), and the destination is remembered exactly in LEAVING (R116). -/
abbrev TablesFollowState (s : State) : Prop :=
  (s.membership.leaving.isSome = true ↔ s.membership.state = .leaving) ∧
  (recordingState s.membership.state = false →
    liveOrders s = [] ∧ ∀ n : StationNo, rosterEntry s n = RosterEntry.absent) ∧
  rosterEntry s (ownNumber s) = RosterEntry.absent ∧
  (s.membership.state ≠ .member → openBallots s = [])

/-- Outside ARRIVING and MEMBER the carrier is zero (R82), and the sample port carries a sample that is not zero only at a
MEMBER whose synced flag is set (R80). -/
abbrev CarrierFollowsState (s : State) : Prop :=
  (gridState s.membership.state = false →
    s.carrier.accumulator = 0 ∧ s.carrier.frequency = 0 ∧ s.carrier.amplitude = 0 ∧ s.carrier.current = none ∧
    s.carrier.synced = false ∧ ∀ x ∈ s.carrier.delayLine, x = 0) ∧
  (s.carrier.port ≠ 0 → s.membership.state = .member ∧ s.carrier.synced = true) ∧
  s.carrier.delayLine.length ≤ 264

/-- No two live orders share an id or a target (R3). -/
abbrev ScheduleDistinct (s : State) : Prop :=
  (liveOrders s).Pairwise fun a b => a.id ≠ b.id ∧ a.target ≠ b.target

/-- While the counter is present, every live target is ahead of it (R4). -/
abbrev TargetsAhead (s : State) : Prop :=
  ∀ g ∈ s.timer.grid, ∀ o ∈ liveOrders s, aheadOf g.counter o.target = true

/-- Every open ballot is for an own PENDING order in the Schedule with the same target, its accepted set is part of its
electorate, and no electorate holds the own number (R7). -/
abbrev BallotsFollowOrders (s : State) : Prop :=
  (openBallots s).Pairwise (fun a b => a.seq ≠ b.seq) ∧
  ∀ b ∈ openBallots s,
    (∃ o ∈ liveOrders s, o.id = ownId s b.seq ∧ o.target = b.target ∧ o.state = .pending) ∧
    subset b.accepted b.electorate = true ∧ inSet b.electorate (ownNumber s) = false

/-- A frame that only a withdrawal queues: LEAVE, or an ABORT with reason ORIGIN_LEAVING (R26, R116). -/
def isLeavingFrame : Payload → Bool
  | .leave _ => true
  | .abort _ _ .originLeaving _ => true
  | _ => false

/-- The Transmit Queue holds at most 8 frames, at most one of each limit class (R151), in order of age, each with an ident of
its own, and frames of a withdrawal only in LEAVING. -/
abbrev QueueInLimits (s : State) : Prop :=
  s.queue.entries.length ≤ 8 ∧
  s.queue.entries.Pairwise (fun a b => a.age < b.age ∧ a.ident ≠ b.ident ∧ sameLimit a.payload b.payload = false) ∧
  (∀ e ∈ s.queue.entries, e.age ≤ e.ident ∧ e.ident < s.queue.nextIdent) ∧
  (∀ a ∈ s.bus.sending, a.ident < s.queue.nextIdent) ∧
  (s.membership.state ≠ .leaving → ∀ e ∈ s.queue.entries, isLeavingFrame e.payload = false)

/-- The idle count is at most 6 (R137), the attempt count below 8 between attempts (R144), the consecutive-withdrawal count
at most 15 and the member mark count at most 64 (R118), the quiet count at most S (R131), and the counts of a MEMBER are 0
elsewhere. -/
abbrev CountsInRange (s : State) : Prop :=
  s.bus.idleCount ≤ 6 ∧ s.bus.attempts < 8 ∧ s.membership.withdrawals ≤ 15 ∧ s.membership.memberMarks ≤ 64 ∧
  s.membership.quiet ≤ s.profile.silenceLimit ∧
  (s.membership.state ≠ .member → s.membership.memberMarks = 0 ∧ s.membership.quiet = 0)

end Sys2Proof.Machine
end

