-- ==== Sys2Proof/Certificates/Slice0/Obligations.lean ====
section
/-! DEFINITION. The statements about the station, one proposition each: first those about every command and every step,
then the local port, the shared operations, the clock and the hold line, the accepted frames, and the Cohort Bus. -/

open Sys2Proof Sys2Proof.Machine

/-! ### Every command and every step -/

/-- A step carries out the command at the front of the queue on the state with the queue's rest; with no command waiting the
block idles, which is the model's choice (assumption 1). -/
def Obligations.StepRunsTheFrontCommand : Prop :=
  (∀ (c : Instr) (rest : List Instr) (s : State),
    step { s with pending := c :: rest } = exec c { s with pending := rest }) ∧
  ∀ s : State, s.pending = [] → step s = .next s

/-- Every command answers a next state in every state, and none touches the queue of waiting commands: the manual describes
no stop of the part. Only a reference clock and power-on reset change the count of clocks and what the input pins of the reset
and the local port have left (R172, R180, R181). -/
def Obligations.EveryCommandCompletes : Prop :=
  ∀ (c : Instr) (s : State), ∃ t, exec c s = .next t ∧ t.pending = s.pending ∧
    (c ≠ .powerOnReset → c ≠ .carrierSample → t.clock = s.clock ∧ t.localPort = s.localPort ∧
      t.resetPin = s.resetPin ∧ t.inputs = s.inputs)

/-- The profile and the tone table are frozen in every state except IDLE (R84, R72), power-on reset apart, by command
or by a clock with RSTN low (R180). -/
def Obligations.ProfileAndTonesChangeOnlyInIdle : Prop :=
  ∀ (c : Instr) (s t : State), exec c s = .next t → s.membership.state ≠ .idle → c ≠ .powerOnReset →
    (c = .carrierSample → (pinsNow s).rstn = .high) → t.profile = s.profile ∧ t.carrier.tones = s.carrier.tones

/-- The state after reset meets every invariant below. -/
def Obligations.ResetMeetsTheInvariants : Prop :=
  ProfileInRange State.reset ∧ GridInRange State.reset ∧ MonitorBounded State.reset ∧ TimerFollowsState State.reset ∧
  TablesFollowState State.reset ∧ CarrierFollowsState State.reset ∧ ScheduleDistinct State.reset ∧
  TargetsAhead State.reset ∧ BallotsFollowOrders State.reset ∧ QueueInLimits State.reset ∧ CountsInRange State.reset

/-- Every step keeps every parameter in its range (R176), the epoch phase in 0..L − 1 (R29), the tallies, the overflow count
and the notice queue in their bounds (R161, R168), and the idle count, the attempt count, the withdrawal and member mark
counts and the quiet count in theirs (R137, R144, R118, R131). -/
def Obligations.StepKeepsEveryCountInItsRange : Prop :=
  ∀ s t : State, step s = .next t →
    (ProfileInRange s → ProfileInRange t) ∧
    (ProfileInRange s → TimerFollowsState s → GridInRange s → GridInRange t) ∧
    (MonitorBounded s → MonitorBounded t) ∧
    (CountsInRange s → CountsInRange t)

/-- Every step keeps the epoch counter present exactly in ARRIVING and MEMBER, and each claim to its own states (R29,
R33). -/
def Obligations.StepKeepsTheTimerWithTheState : Prop :=
  ∀ s t : State, TimerFollowsState s → step s = .next t → TimerFollowsState t

/-- Every step keeps the Schedule and the Roster empty in IDLE, LISTEN, LEAVING and FORMING, the own Roster entry ABSENT, and
ballots to MEMBER (R85, R121, R27). -/
def Obligations.StepKeepsQuietStatesEmpty : Prop :=
  ∀ s t : State, TablesFollowState s → step s = .next t → TablesFollowState t

/-- Every step keeps the carrier zero outside ARRIVING and MEMBER, and a non-zero sample at the port only while the output
state is LIVE (R80, R82). -/
def Obligations.StepKeepsTheCarrierSilentOutsideTheCohort : Prop :=
  ∀ s t : State, TablesFollowState s → CarrierFollowsState s → step s = .next t → CarrierFollowsState t

/-- Every step keeps the live orders distinct in id and target (R3), and their targets ahead of the counter (R4). -/
def Obligations.StepKeepsTheScheduleInOrder : Prop :=
  ∀ s t : State, step s = .next t →
    (ScheduleDistinct s → ScheduleDistinct t) ∧
    (ScheduleDistinct s → TimerFollowsState s → TablesFollowState s → TargetsAhead s → TargetsAhead t)

/-- Every step keeps each open ballot with its own PENDING order, its accepted set inside its electorate, and the own number
out of every electorate (R7). -/
def Obligations.StepKeepsBallotsWithTheirOrders : Prop :=
  ∀ s t : State, TablesFollowState s → ScheduleDistinct s → BallotsFollowOrders s → step s = .next t →
    BallotsFollowOrders t

/-- Every step keeps the Transmit Queue within its places and its limits per kind, and in order of age (R151). -/
def Obligations.StepKeepsTheQueueInItsLimits : Prop :=
  ∀ s t : State, TablesFollowState s → QueueInLimits s → step s = .next t → QueueInLimits t

/-- Reading back the slots of a frame that a sender drives gives the sender and the payload, and the frame passes a
receiver's test (R136, R138, R139, R145). -/
def Obligations.FramesReadBack : Prop :=
  ∀ (station : StationNo) (p : Payload), p.WellFormed = true →
    frameRead (frameSlots station p) = some (station, p) ∧ ownTest (frameSlots station p) = true ∧
    (frameSlots station p).length = 29 + 8 * kindLength (payloadKind p)

/-! ### The local port -/

/-- POWER_ON_RESET puts every item at its stated value (R180); the waiting commands are not the station's. A transaction that
runs at the reset is void (R172). While RSTN is low, no command but a reset or a clock changes anything; a clock with RSTN low
is a power-on reset too, and every item keeps its reset value over it. That the levels of RSTN come from the list of inputs is
the model's choice (assumptions 22 and 26). -/
def Obligations.PowerOnResetSetsEveryItem : Prop :=
  ∀ s : State, (∃ t, exec .powerOnReset s = .next t ∧
    (List.range' 1 15).map (parameterValue t.profile) = [12, 6, 8, 1, 16, 8, 8, 2, 0, 0, 0, 32, 5, 0x3FFFF, 4] ∧
    t.response = ⟨0, .empty, none, []⟩ ∧
    t.membership.state = .idle ∧ (∀ n, rosterEntry t n = ⟨.absent, none, 0⟩) ∧
    formationSize t.membership.formation = 0 ∧ t.membership.blindHorizon = none ∧ t.membership.withdrawals = 0 ∧
    t.timer.grid = none ∧ pullsHold t = false ∧ t.timer.lastReading = none ∧
    liveOrders t = [] ∧ openBallots t = [] ∧ t.orders.sequence = 0 ∧
    t.bus.attempts = 0 ∧ t.bus.attemptsFor = none ∧ t.bus.reading = none ∧ t.bus.sending = none ∧ pullsData t = false ∧
    t.queue.entries = [] ∧
    (∀ i, toneAt t i = ⟨0, 0, 0, false⟩) ∧ t.carrier.accumulator = 0 ∧ t.carrier.frequency = 0 ∧
    t.carrier.amplitude = 0 ∧ t.carrier.current = none ∧ t.carrier.synced = false ∧ (∀ x ∈ t.carrier.delayLine, x = 0) ∧
    outputState t = .blank ∧ t.carrier.port = 0 ∧
    t.monitor.tallies = ⟨0, 0, 0, 0, 0, 0⟩ ∧ t.monitor.notices = [] ∧ t.monitor.overflow = 0 ∧ attnLow t = false ∧
    ldoPin t = none ∧ t.resetPin = (pinsNow s).rstn ∧
    t.localPort.transaction = (if s.localPort.transaction = .closed then .closed else .void) ∧
    t.localPort.arrived = none ∧ t.inputs = s.inputs ∧ t.pending = s.pending ∧
    (t.resetPin = .low → ∀ c : Instr, c ≠ .powerOnReset → c ≠ .carrierSample → exec c t = .next t) ∧
    (t.resetPin = .low → ∃ port, exec .carrierSample t = .next { t with localPort := port, inputs := t.inputs.tail })) ∧
  ((pinsNow s).rstn = .low → ∃ port, exec .carrierSample s = .next { State.reset with
      resetPin := .low, localPort := port, inputs := s.inputs.tail, pending := s.pending } ∧
    port.transaction = (if (pinsNow s).lsel = .low then .void else .closed) ∧ port.arrived = none)

/-- LOAD_PARAMETER: out of range is BAD_REQUEST, then outside IDLE is BUSY; otherwise that one parameter takes the value and
nothing else changes (R177). -/
def Obligations.LoadParameterSetsOneParameter : Prop :=
  ∀ (id : Byte) (value : BitVec 24) (s : State), takesRequest (.loadParameter id value) s = true →
    (parameterInRange id.toNat value.toNat = false →
      exec (.loadParameter id value) s = .next { s with response := ⟨0x01, .badRequest, none, []⟩ }) ∧
    (parameterInRange id.toNat value.toNat = true → s.membership.state ≠ .idle →
      exec (.loadParameter id value) s = .next { s with response := ⟨0x01, .busy, none, []⟩ }) ∧
    (parameterInRange id.toNat value.toNat = true → s.membership.state = .idle →
      ∃ p : Profile,
        exec (.loadParameter id value) s = .next { s with profile := p, response := ⟨0x01, .ok, none, []⟩ } ∧
        parameterValue p id.toNat = value.toNat ∧
        ∀ k : Nat, k ≠ id.toNat → parameterValue p k = parameterValue s.profile k)

/-- LOAD_TONE and CLEAR_TONE by the conditions of R71 and R72, in their order, and what follows for START when entry 0 has
been cleared. -/
def Obligations.ToneRequestsFollowTheirConditions : Prop :=
  ∀ (index : Byte) (frequency : BitVec 32) (offset amplitude : BitVec 16) (s : State),
    (takesRequest (.loadTone index frequency offset amplitude) s = true →
    (63 < index.toNat ∨ 4095 < amplitude.toNat →
      exec (.loadTone index frequency offset amplitude) s =
        .next { s with response := ⟨0x02, .badRequest, none, []⟩ }) ∧
    (index.toNat ≤ 63 → amplitude.toNat ≤ 4095 → s.membership.state ≠ .idle →
      exec (.loadTone index frequency offset amplitude) s = .next { s with response := ⟨0x02, .busy, none, []⟩ }) ∧
    (∀ i : ToneIndex, i.val = index.toNat → amplitude.toNat ≤ 4095 → s.membership.state = .idle →
      ∃ (table : Table ToneEntry 64) (a : BitVec 12),
        exec (.loadTone index frequency offset amplitude) s =
          .next { s with carrier := { s.carrier with tones := table }, response := ⟨0x02, .ok, none, []⟩ } ∧
        a.toNat = amplitude.toNat ∧ table.get i = ⟨frequency, offset, a, true⟩ ∧
        (∀ j, j ≠ i → table.get j = toneAt s j) ∧
        (amplitude = 0 → ∀ accumulator, sampleOf accumulator a = 0))) ∧
    (takesRequest (.clearTone index) s = true →
    (63 < index.toNat → exec (.clearTone index) s = .next { s with response := ⟨0x03, .badRequest, none, []⟩ }) ∧
    (index.toNat ≤ 63 → s.membership.state ≠ .idle →
      exec (.clearTone index) s = .next { s with response := ⟨0x03, .busy, none, []⟩ }) ∧
    (∀ i : ToneIndex, i.val = index.toNat → s.membership.state = .idle →
      ∃ table : Table ToneEntry 64,
        exec (.clearTone index) s =
          .next { s with carrier := { s.carrier with tones := table }, response := ⟨0x03, .ok, none, []⟩ } ∧
        table.get i = ⟨0, 0, 0, false⟩ ∧ (∀ j, j ≠ i → table.get j = toneAt s j) ∧
        (toneAt s i = ⟨0, 0, 0, false⟩ → table = s.carrier.tones) ∧
        (i = 0 → ∀ u : State, takesRequest .start u = true → u.carrier.tones = table → u.membership.state = .idle →
          exec .start u = .next { u with response := ⟨0x04, .refused, some .noRestTone, []⟩ })))

/-- START by the conditions of R88; an accepted START begins the first listen span and keeps the Monitor, the tone table and
the sequence counter. -/
def Obligations.StartEntersListen : Prop :=
  ∀ s : State, takesRequest .start s = true →
    (s.membership.state ≠ .idle → exec .start s = .next { s with response := ⟨0x04, .busy, none, []⟩ }) ∧
    (s.membership.state = .idle → (toneAt s 0).valid = false →
      exec .start s = .next { s with response := ⟨0x04, .refused, some .noRestTone, []⟩ }) ∧
    (s.membership.state = .idle → (toneAt s 0).valid = true →
      ∃ t, exec .start s = .next t ∧ t.response = ⟨0x04, .ok, none, []⟩ ∧ t.membership.state = .listen ∧
        t.membership.listenTimer = 0 ∧ t.membership.cohortSeen = false ∧ t.membership.mismatch = 0 ∧
        t.membership.withdrawals = 0 ∧ (∀ n, rosterEntry t n = ⟨.absent, none, 0⟩) ∧
        t.timer.grid = none ∧ pullsHold t = false ∧ t.timer.lastReading = none ∧
        t.bus = ⟨0, false, 0, none, none, false, false, false, 0, none⟩ ∧
        t.profile = s.profile ∧ t.orders = s.orders ∧ t.queue = s.queue ∧ t.carrier = s.carrier ∧
        t.monitor = s.monitor ∧ t.clock = s.clock ∧ t.pending = s.pending)

/-- STOP by the state in which it is taken (R89). What a withdrawal does is `WithdrawalLeavesTheCohort`. -/
def Obligations.StopFollowsTheState : Prop :=
  ∀ s : State, takesRequest .stop s = true →
    (s.membership.state = .idle → exec .stop s = .next { s with response := ⟨0x05, .ok, none, []⟩ }) ∧
    (s.membership.state = .listen ∨ s.membership.state = .aligning →
      ∃ t, exec .stop s = .next t ∧ t.response = ⟨0x05, .ok, none, []⟩ ∧ t.membership.state = .idle ∧
        liveOrders t = [] ∧ openBallots t = [] ∧ (∀ n, rosterEntry t n = ⟨.absent, none, 0⟩) ∧
        t.timer.reference = none ∧ t.timer.pulseFall = none ∧ t.timer.grid = none ∧ pullsHold t = false ∧
        t.queue.entries = [] ∧ t.bus.sending = none ∧ pullsData t = false ∧
        t.timer.lastReading = s.timer.lastReading ∧ t.membership.withdrawals = s.membership.withdrawals ∧
        t.orders.sequence = s.orders.sequence ∧ t.profile = s.profile ∧ t.carrier = s.carrier ∧
        t.monitor = s.monitor ∧ t.clock = s.clock ∧ t.pending = s.pending) ∧
    (s.membership.state = .forming ∨ s.membership.state = .arriving ∨ s.membership.state = .member →
      exec .stop s = .next { withdraw .stop s with response := ⟨0x05, .ok, none, []⟩ }) ∧
    (s.membership.state = .leaving →
      exec .stop s = .next { s with
        response := ⟨0x05, .ok, none, []⟩
        membership := { s.membership with
          leaving := s.membership.leaving.map fun l => { l with destination := .idle } } })

/-- RESTART returns the station to IDLE and keeps the profile, the tone table, the sequence counter, the tallies, the notices
and the overflow count (R179). -/
def Obligations.RestartKeepsOnlyItsRecords : Prop :=
  ∀ s : State, takesRequest .restart s = true → ∃ t, exec .restart s = .next t ∧ t.response = ⟨0x06, .ok, none, []⟩ ∧
    t.bus.sending = none ∧ t.bus.reading = none ∧ t.bus.attempts = 0 ∧ pullsData t = false ∧
    pullsHold t = false ∧ t.timer.grid = none ∧ t.timer.provisional = none ∧ t.timer.reference = none ∧
    liveOrders t = [] ∧ openBallots t = [] ∧ (∀ n, rosterEntry t n = ⟨.absent, none, 0⟩) ∧
    formationSize t.membership.formation = 0 ∧ t.membership.blindHorizon = none ∧ t.membership.withdrawals = 0 ∧
    t.membership.quiet = 0 ∧ t.membership.memberMarks = 0 ∧ t.queue.entries = [] ∧
    t.carrier = { s.carrier with
      accumulator := 0, frequency := 0, amplitude := 0, current := none, synced := false, delayLine := [], port := 0 } ∧
    t.membership.state = .idle ∧ t.timer.lastReading = none ∧
    t.profile = s.profile ∧ t.orders.sequence = s.orders.sequence ∧ t.monitor = s.monitor ∧ t.clock = s.clock ∧
    t.pending = s.pending

/-- SUBMIT: refused outside MEMBER; in MEMBER the first check of R6 that fails refuses it without any other change, and when
every check passes the order is recorded under the first free sequence value (R5), a ballot is opened, PROPOSE is queued
and the sequence is returned. -/
def Obligations.SubmitChecksThenProposes : Prop :=
  ∀ (target : Epoch) (mask tone mode : Byte) (s : State), takesRequest (.submit target mask tone mode) s = true →
    (s.membership.state ≠ .member →
      exec (.submit target mask tone mode) s =
        .next { s with response := ⟨0x07, .refused, some .notMember, []⟩ }) ∧
    (s.membership.state = .member → s.membership.leaving = none → ∀ g, s.timer.grid = some g →
      let lead := epochDistance g.counter target
      let failed : Option RefusalReason :=
        if mask = 0 ∨ 63 < tone.toNat ∨ (mode ≠ 1 ∧ mode ≠ 2) then some .badArgument
        else if lead < s.profile.commitLead + 2 ∨ 32767 < lead then some .late
        else if 4 ≤ (openBallots s).length then some .ballotsFull
        else if 16 ≤ (liveOrders s).length then some .scheduleFull
        else if ∃ o ∈ liveOrders s, o.target = target then some .clash
        else if inMask mask s.profile.group = true ∧ ∃ i : ToneIndex, i.val = tone.toNat ∧ (toneAt s i).valid = false then
          some .noTone
        else if 8 ≤ s.queue.entries.length ∧
            ∀ e ∈ s.queue.entries, payloadKind e.payload ∉ [FrameKind.epoch, .hello, .leave] then some .queueFull
        else none
      (∀ reason, failed = some reason →
        exec (.submit target mask tone mode) s = .next { s with response := ⟨0x07, .refused, some reason, []⟩ }) ∧
      (failed = none → ∃ (t : State) (q : Seq) (k : Nat) (i : ToneIndex) (m : PhaseMode),
        exec (.submit target mask tone mode) s = .next t ∧ t.response = ⟨0x07, .ok, none, [q]⟩ ∧
        k < 17 ∧ q = s.orders.sequence + BitVec.ofNat 8 (k + 1) ∧ (∀ o ∈ liveOrders s, o.id ≠ ownId s q) ∧
        (∀ j, j < k → ∃ o ∈ liveOrders s, o.id = ownId s (s.orders.sequence + BitVec.ofNat 8 (j + 1))) ∧
        i.val = tone.toNat ∧ phaseModeCode m = mode.toNat ∧
        t.orders.schedule = s.orders.schedule.putFirstFree
          ⟨ownId s q, target, mask, i, m, .pending, .none, false, false⟩ ∧
        t.orders.ballots = s.orders.ballots.putFirstFree ⟨q, target, 0, 0, .awaitingSend⟩ ∧
        t.orders.sequence = q ∧ (∃ e ∈ t.queue.entries, e.payload = .propose q target mask i m) ∧
        t.profile = s.profile ∧ t.timer = s.timer ∧ t.membership = s.membership ∧ t.carrier = s.carrier ∧
        t.clock = s.clock ∧ t.pending = s.pending))

/-- WITHDRAW by the conditions of R14. What an abort does is `AbortEndsAnOwnOrder`. -/
def Obligations.WithdrawFollowsItsConditions : Prop :=
  ∀ (seq : Byte) (s : State), takesRequest (.withdraw seq) s = true →
    (s.membership.state ≠ .member →
      exec (.withdraw seq) s = .next { s with response := ⟨0x08, .refused, some .notMember, []⟩ }) ∧
    (s.membership.state = .member → ∀ b, ballotWithSeq s seq = some b →
      (b.state = .committing ∧ commitOnBus s seq b.target = true →
        exec (.withdraw seq) s = .next { s with response := ⟨0x08, .refused, some .tooLate, []⟩ }) ∧
      (¬ (b.state = .committing ∧ commitOnBus s seq b.target = true) →
        exec (.withdraw seq) s =
          .next { abortOwn b .withdrawn (ownNumber s) s with response := ⟨0x08, .ok, none, []⟩ })) ∧
    (s.membership.state = .member → ballotWithSeq s seq = none →
      ((∃ o ∈ liveOrders s, o.id = ownId s seq) →
        exec (.withdraw seq) s = .next { s with response := ⟨0x08, .refused, some .tooLate, []⟩ }) ∧
      ((∀ o ∈ liveOrders s, o.id ≠ ownId s seq) →
        exec (.withdraw seq) s = .next { s with response := ⟨0x08, .refused, some .notHeld, []⟩ }))

/-- VETO by the conditions of R65: an accepted request sets the veto request of that order and changes nothing else. At the
phase of the veto point itself the request comes in time while the point has not been taken (R66), by the model's record of
the points taken (assumption 6). -/
def Obligations.VetoFollowsItsConditions : Prop :=
  ∀ (origin seq : Byte) (s : State), takesRequest (.veto origin seq) s = true →
    (31 < origin.toNat →
      exec (.veto origin seq) s = .next { s with response := ⟨0x09, .badRequest, none, []⟩ }) ∧
    ∀ n : StationNo, n.val = origin.toNat →
      (s.membership.state ≠ .arriving → s.membership.state ≠ .member →
        exec (.veto origin seq) s = .next { s with response := ⟨0x09, .refused, some .notMember, []⟩ }) ∧
      (s.membership.state = .arriving ∨ s.membership.state = .member →
        ((∀ o ∈ liveOrders s, o.id ≠ ⟨n, seq⟩) →
          exec (.veto origin seq) s = .next { s with response := ⟨0x09, .refused, some .notHeld, []⟩ }) ∧
        (∀ o g, orderWithId s ⟨n, seq⟩ = some o → s.timer.grid = some g →
          let past := 5 * epochLength s.profile / 8 < g.phase ∨ 5 * epochLength s.profile / 8 ≤ g.point
          (epochDistance g.counter o.target = 1 ∧ past →
            exec (.veto origin seq) s = .next { s with response := ⟨0x09, .refused, some .tooLate, []⟩ }) ∧
          (¬ (epochDistance g.counter o.target = 1 ∧ past) →
            ∃ schedule : Table (Option Order) 16,
              exec (.veto origin seq) s = .next { s with
                orders := { s.orders with schedule := schedule }, response := ⟨0x09, .ok, none, []⟩ } ∧
              ∀ slot, schedule.get slot = (s.orders.schedule.get slot).map fun x =>
                if x.id = ⟨n, seq⟩ then { x with vetoRequest := true } else x)))

/-- READ_STATUS returns the 27 bytes of R175 and changes nothing but the response. That byte 24 says no frame is in transmission
while a displaced one is on the bus (R160) is DEDUCED (assumption 15). -/
def Obligations.ReadStatusReportsTheStation : Prop :=
  ∀ s : State, takesRequest .readStatus s = true → ∃ fields : List Byte,
    exec .readStatus s = .next { s with response := ⟨0x0A, .ok, none, fields⟩ } ∧ fields.length = 27 ∧
    fields.take 3 = [stateCode s.membership.state, BitVec.ofNat 8 s.profile.station.val,
      BitVec.ofNat 8 s.profile.group.val] ∧
    (fields.drop 3).take 2 =
      [BitVec.ofNat 8 ((digestOf s.profile).toNat / 256), BitVec.ofNat 8 (digestOf s.profile).toNat] ∧
    fields[5]? = some (BitVec.ofNat 8 ((if s.timer.grid.isSome then 1 else 0) +
      (if s.timer.lastReading.isSome then 2 else 0) + (if s.membership.blindHorizon.isSome then 4 else 0))) ∧
    (∀ g, s.timer.grid = some g → (fields.drop 6).take 4 =
      [BitVec.ofNat 8 (g.counter.toNat / 256), BitVec.ofNat 8 g.counter.toNat,
       BitVec.ofNat 8 (g.phase / 256), BitVec.ofNat 8 g.phase]) ∧
    (s.timer.grid = none → (fields.drop 6).take 4 = [0, 0, 0, 0]) ∧
    fields[10]? = some (BitVec.ofNat 8 ((if s.timer.claims.formation then 1 else 0) +
      (if s.timer.claims.mark then 2 else 0) + (if s.timer.claims.veto then 4 else 0))) ∧
    (∀ r, s.timer.lastReading = some r → (fields.drop 11).take 6 =
      [BitVec.ofNat 8 (r.mark.toNat / 256), BitVec.ofNat 8 r.mark.toNat, BitVec.ofNat 8 (r.lead / 256),
       BitVec.ofNat 8 r.lead, BitVec.ofNat 8 (r.lag / 256), BitVec.ofNat 8 r.lag]) ∧
    (s.timer.lastReading = none → (fields.drop 11).take 6 = [0, 0, 0, 0, 0, 0]) ∧
    (s.membership.blindHorizon = none → (fields.drop 17).take 2 = [0, 0]) ∧
    (∀ h, s.membership.blindHorizon = some h → (fields.drop 17).take 2 =
      [BitVec.ofNat 8 (h.toNat / 256), BitVec.ofNat 8 h.toNat]) ∧
    fields.drop 19 =
      [outputCode (outputState s), if s.carrier.synced then 1 else 0,
       (s.carrier.current.map fun i => BitVec.ofNat 8 i.val).getD 0xFF, BitVec.ofNat 8 s.membership.withdrawals,
       BitVec.ofNat 8 s.queue.entries.length, if s.queue.entries.any (inTransmission s) then 1 else 0,
       BitVec.ofNat 8 s.monitor.notices.length,
       if s.membership.state = .forming then BitVec.ofNat 8 (formationSize s.membership.formation) else 0]

/-- READ_ROSTER returns the presence, group and silence of every station number and changes nothing but the response
(R134). -/
def Obligations.ReadRosterReportsEveryEntry : Prop :=
  ∀ s : State, takesRequest .readRoster s = true → ∃ fields : List Byte,
    exec .readRoster s = .next { s with response := ⟨0x0B, .ok, none, fields⟩ } ∧ fields.length = 96 ∧
    (∀ n : StationNo,
      fields[3 * n.val]? = some (match (rosterEntry s n).presence with
        | .absent => 0
        | .arriving => 1
        | .member => 2) ∧
      fields[3 * n.val + 1]? = some (((rosterEntry s n).group.map fun g => BitVec.ofNat 8 g.val).getD 0xFF) ∧
      fields[3 * n.val + 2]? = some (BitVec.ofNat 8 (rosterEntry s n).silence)) ∧
    (TablesFollowState s → fields[3 * s.profile.station.val]? = some 0)

/-- READ_ORDER and READ_BALLOT return the record in a slot, EMPTY for a free slot and BAD_REQUEST for a slot out of range, and
change nothing but the response (R28). -/
def Obligations.ReadOrderAndReadBallotReportTheirSlots : Prop :=
  ∀ (slot : Byte) (s : State),
    (takesRequest (.readOrder slot) s = true →
    (15 < slot.toNat → exec (.readOrder slot) s = .next { s with response := ⟨0x0C, .badRequest, none, []⟩ }) ∧
    (∀ i : Fin 16, i.val = slot.toNat → s.orders.schedule.get i = none →
      exec (.readOrder slot) s = .next { s with response := ⟨0x0C, .empty, none, []⟩ }) ∧
    (∀ (i : Fin 16) (o : Order), i.val = slot.toNat → s.orders.schedule.get i = some o →
      exec (.readOrder slot) s = .next { s with response := ⟨0x0C, .ok, none,
        [BitVec.ofNat 8 o.id.origin.val, o.id.seq, BitVec.ofNat 8 (o.target.toNat / 256),
         BitVec.ofNat 8 o.target.toNat, o.mask, BitVec.ofNat 8 o.tone.val, if o.mode = .restart then 1 else 2,
         if o.state = .ready then 1 else 0, match o.vote with | .none => 0 | .accepted => 1 | .unsent => 2,
         if o.vetoRequest then 1 else 0, if o.armed then 1 else 0]⟩ })) ∧
    (takesRequest (.readBallot slot) s = true →
    (3 < slot.toNat → exec (.readBallot slot) s = .next { s with response := ⟨0x0D, .badRequest, none, []⟩ }) ∧
    (∀ i : Fin 4, i.val = slot.toNat → s.orders.ballots.get i = none →
      exec (.readBallot slot) s = .next { s with response := ⟨0x0D, .empty, none, []⟩ }) ∧
    (∀ (i : Fin 4) (b : Ballot), i.val = slot.toNat → s.orders.ballots.get i = some b →
      exec (.readBallot slot) s = .next { s with response := ⟨0x0D, .ok, none,
        [b.seq, BitVec.ofNat 8 (b.target.toNat / 256), BitVec.ofNat 8 b.target.toNat,
         match b.state with | .awaitingSend => 0 | .collecting => 1 | .committing => 2,
         BitVec.ofNat 8 (b.electorate.toNat / 16777216), BitVec.ofNat 8 (b.electorate.toNat / 65536),
         BitVec.ofNat 8 (b.electorate.toNat / 256), BitVec.ofNat 8 b.electorate.toNat,
         BitVec.ofNat 8 (b.accepted.toNat / 16777216), BitVec.ofNat 8 (b.accepted.toNat / 65536),
         BitVec.ofNat 8 (b.accepted.toNat / 256), BitVec.ofNat 8 b.accepted.toNat]⟩ }))

/-- READ_TALLIES returns the six tallies and the overflow count and changes nothing but the response (R165); CLEAR_TALLIES
sets them to 0 in every state, and the notices stay, and with them ATTN (R164, R170, R171). -/
def Obligations.TalliesAreReadAndCleared : Prop :=
  ∀ s : State,
    (takesRequest .readTallies s = true → exec .readTallies s = .next { s with response := ⟨0x0E, .ok, none,
      [BitVec.ofNat 8 s.monitor.tallies.check, BitVec.ofNat 8 s.monitor.tallies.spoil,
       BitVec.ofNat 8 s.monitor.tallies.drop, BitVec.ofNat 8 s.monitor.tallies.stray,
       BitVec.ofNat 8 s.monitor.tallies.skew, BitVec.ofNat 8 s.monitor.tallies.disagree,
       BitVec.ofNat 8 s.monitor.overflow]⟩ }) ∧
    (takesRequest .clearTallies s = true → ∃ t, exec .clearTallies s = .next t ∧
      t = { s with monitor := ⟨⟨0, 0, 0, 0, 0, 0⟩, s.monitor.notices, 0⟩, response := ⟨0x0F, .ok, none, []⟩ } ∧
      attnLow t = attnLow s)

/-- TAKE_NOTICE removes the oldest notice and returns its five fields, or answers EMPTY and changes nothing else (R169); the
bytes of an absent field, and of a detail past its end, are 0. ATTN is low exactly while a notice waits (R170). -/
def Obligations.TakeNoticeReturnsTheOldest : Prop :=
  ∀ s : State, takesRequest .takeNotice s = true →
    (s.monitor.notices = [] → exec .takeNotice s = .next { s with response := ⟨0x10, .empty, none, []⟩ }) ∧
    (∀ n rest, s.monitor.notices = n :: rest → ∃ (t : State) (fields : List Byte),
      exec .takeNotice s = .next t ∧
      t = { s with monitor := { s.monitor with notices := rest }, response := ⟨0x10, .ok, none, fields⟩ } ∧
      (attnLow t = true ↔ rest ≠ []) ∧ fields.length = 11 ∧
      fields[0]? = some (BitVec.ofNat 8 (reportCode n.report)) ∧
      fields[1]? = some (BitVec.ofNat 8 ((if n.epoch.isSome then 1 else 0) +
        (if (reportStation n.report).isSome then 2 else 0) + (if (reportOrder n.report).isSome then 4 else 0))) ∧
      (∀ e, n.epoch = some e →
        (fields.drop 2).take 2 = [BitVec.ofNat 8 (e.toNat / 256), BitVec.ofNat 8 e.toNat]) ∧
      (n.epoch = none → (fields.drop 2).take 2 = [0, 0]) ∧
      (∀ x, reportStation n.report = some x → fields[4]? = some (BitVec.ofNat 8 x.val)) ∧
      (reportStation n.report = none → fields[4]? = some 0) ∧
      (∀ x, reportOrder n.report = some x →
        (fields.drop 5).take 2 = [BitVec.ofNat 8 x.origin.val, x.seq]) ∧
      (reportOrder n.report = none → (fields.drop 5).take 2 = [0, 0]) ∧
      fields.drop 7 = (reportDetail n.report ++ [0, 0, 0, 0]).take 4)

/-- Transactions of the local port. BAD_REQUEST answers a write transaction of wrong form and changes nothing but the response
(R174); code 00h names a read transaction, which changes nothing at all (R173). A request is taken unless RSTN is low (R180) or
the transaction that ended at this clock carried another one; a request that is not taken changes nothing (assumption 22). The
bits of a transaction make the bytes of its request, a high level of LSEL for a single clock is not seen, and a transaction
whose LSEL fell before RSTN rose carries nothing (R172). LDO is driven only in a read transaction with LSEL low, and puts out
the count, the response and then zeros (R173); that each of these bytes leaves with its most significant bit first is the
model's choice (assumption 39), and so is that an edge of LCLK at a clock with LSEL high shifts nothing (assumption 40). -/
def Obligations.BadRequestChangesOnlyTheResponse : Prop :=
  ∀ (code : Byte) (s : State),
    (takesRequest (.badRequest code) s = true → code ≠ 0 →
      exec (.badRequest code) s = .next { s with response := ⟨code, .badRequest, none, []⟩ }) ∧
    (code = 0 → exec (.badRequest code) s = .next s) ∧
    (∀ c : Instr, (takesRequest c s = true ↔ s.resetPin = .high ∧ ∀ i, s.localPort.arrived = some i → i = c) ∧
      (isRequest c = true → takesRequest c s = false → exec c s = .next s)) ∧
    (∀ (p : LocalPort) (first rest : List Byte) (gap : List Level), gap.length ≤ 1 → (gap = [] ∨ rest ≠ []) →
      p.lclk = .low →
      let bits := fun bytes : List Byte => bytes.flatMap fun b => (List.range 8).flatMap fun k =>
        let data : Level := if b.getMsbD k then .high else .low
        [(⟨.high, .low, .low, data⟩ : Pins), ⟨.high, .low, .low, data⟩, ⟨.high, .low, .high, data⟩,
          ⟨.high, .low, .high, data⟩]
      let port := ([(⟨.high, .low, .low, .low⟩ : Pins)] ++ bits first ++ gap.map (fun l => (⟨.high, .high, l, .low⟩ : Pins)) ++
        bits rest ++ [(⟨.high, .high, .low, .low⟩ : Pins), ⟨.high, .high, .low, .low⟩]).foldl (fun q pins => clockPort pins q) p
      (p.transaction = .closed →
        port = { LocalPort.closed with arrived := transactionCommand (first ++ rest) }) ∧
      (p.transaction = .void → port = LocalPort.closed)) ∧
    (ldoPin s ≠ none ↔ s.resetPin = .high ∧ s.localPort.transaction = .running ∧ s.localPort.high = 0 ∧
      (shiftedBytes s.localPort.shifted).head? = some 0 ∧ s.localPort.sent ≠ 0) ∧
    ∀ k i, ldoPin s ≠ none → i < 8 → s.localPort.sent = 8 * k + i + 1 →
      let out := BitVec.ofNat 8 (3 + s.response.fields.length) :: s.response.code :: statusCode s.response.status ::
        (s.response.reason.map refusalCode).getD 0 :: s.response.fields
      ldoPin s = some (if (out[k]?.getD 0).getMsbD i then .high else .low)

/-! ### The shared operations -/

/-- Posting a notice and counting a tally. A notice is discarded if its kind is not enabled, queued with the epoch counter if
there is room, and counted as overflow otherwise (R166, R168). A tally counts in FORMING, ARRIVING and MEMBER and stays at
255 (R161); the increment that makes it equal to the threshold posts TALLY_LIMIT and asks for a withdrawal if the kind is in
the withdraw mask (R162). -/
def Obligations.NoticesAndTalliesAreRecorded : Prop :=
  ∀ (r : Report) (k : TallyKind) (s : State),
    (s.profile.noticeMask.getLsbD (reportCode r - 1) = false → post r s = s) ∧
    (s.profile.noticeMask.getLsbD (reportCode r - 1) = true → s.monitor.notices.length < 16 →
      post r s = { s with monitor := { s.monitor with
        notices := s.monitor.notices ++ [⟨r, s.timer.grid.map fun g => g.counter⟩] } }) ∧
    (s.profile.noticeMask.getLsbD (reportCode r - 1) = true → 16 ≤ s.monitor.notices.length →
      post r s = { s with monitor := { s.monitor with overflow := min (s.monitor.overflow + 1) 255 } }) ∧
    let counted : State := { s with monitor := { s.monitor with
      tallies := setTally k (tallyOf k s.monitor.tallies + 1) s.monitor.tallies } }
    let counts := (s.membership.state = .forming ∨ s.membership.state = .arriving ∨ s.membership.state = .member) ∧
      tallyOf k s.monitor.tallies < 255
    (¬ counts → countTally k s = (s, false)) ∧
    (counts → tallyOf k s.monitor.tallies + 1 ≠ s.profile.threshold → countTally k s = (counted, false)) ∧
    (counts → tallyOf k s.monitor.tallies + 1 = s.profile.threshold →
      countTally k s = (post (.tallyLimit k s.profile.threshold) counted,
        s.profile.withdrawMask.getLsbD (tallyCode k - 1))) ∧
    tallyOf k counted.monitor.tallies = tallyOf k s.monitor.tallies + 1 ∧
    ∀ j, j ≠ k → tallyOf j counted.monitor.tallies = tallyOf j s.monitor.tallies

/-- Offering a frame to the Transmit Queue (R152, R153): a waiting frame of its limit class is replaced in place and keeps
its age; otherwise the frame is taken while a place is free or a frame of a higher code is held; otherwise it is refused,
with FRAME_DROPPED and the producer's consequence. The frame displaced is the newest waiting one of the highest code, and
FRAME_DROPPED is posted for it: a lost HELLO or EPOCH has no other consequence (R155), the vote field of a lost accepting VOTE
becomes UNSENT (R19), a lost PROPOSE is aborted with UNSENT (R23) and a lost COMMIT with its order and ballot (R24). Where the
one frame of the highest code is in transmission, it leaves the queue and its attempt goes on (R154). The ident of a
replacement is the model's (assumption 9), and an EPOCH, LEAVE or VOTE that meets one of its class in transmission is refused
as a HELLO is, which is the model's choice (assumption 24). (Where a displaced PROPOSE or COMMIT causes an abort, the frame
offered is one whose order no held frame refers to: the abort purges every frame of its own order.) -/
def Obligations.OfferedFramesAreTakenReplacedOrRefused : Prop :=
  ∀ (p : Payload) (s : State), QueueInLimits s → s.membership.leaving = none →
    (∀ e ∈ s.queue.entries, sameLimit p e.payload = true → inTransmission s e = false →
      (offer p s).queue.entries = s.queue.entries.map fun x =>
        if x.ident = e.ident then ⟨s.queue.nextIdent, x.age, p⟩ else x) ∧
    (∀ e ∈ s.queue.entries, sameLimit p e.payload = true → inTransmission s e = true →
      offer p s = loseFrame p (post (.frameDropped .refused (payloadKind p) (frameOrderId (ownNumber s) p)) s)) ∧
    ((∀ e ∈ s.queue.entries, sameLimit p e.payload = false) → s.queue.entries.length < 8 →
      offer p s = { s with queue :=
        ⟨s.queue.entries ++ [⟨s.queue.nextIdent, s.queue.nextIdent, p⟩], s.queue.nextIdent + 1⟩ }) ∧
    ((∀ e ∈ s.queue.entries, sameLimit p e.payload = false) → s.queue.entries.length = 8 →
      (∃ e ∈ s.queue.entries, kindCode (payloadKind p) < kindCode (payloadKind e.payload)) →
      (∀ e ∈ s.queue.entries, ∀ id, frameOrderId (ownNumber s) p = some id →
        frameOrderId (ownNumber s) e.payload ≠ some id) →
      ∃ e ∈ (offer p s).queue.entries, e.payload = p ∧ e.ident = s.queue.nextIdent) ∧
    ((∀ e ∈ s.queue.entries, sameLimit p e.payload = false) → s.queue.entries.length = 8 →
      (∀ e ∈ s.queue.entries, kindCode (payloadKind e.payload) ≤ kindCode (payloadKind p)) →
      offer p s = loseFrame p (post (.frameDropped .refused (payloadKind p) (frameOrderId (ownNumber s) p)) s)) ∧
    (∀ victim : QueueEntry, s.queue.entries.length = 8 →
      (∀ e ∈ s.queue.entries, sameLimit p e.payload = false) →
      victim ∈ s.queue.entries → inTransmission s victim = false →
      kindCode (payloadKind p) < kindCode (payloadKind victim.payload) →
      (∀ e ∈ s.queue.entries, kindCode (payloadKind e.payload) ≤ kindCode (payloadKind victim.payload)) →
      (∀ e ∈ s.queue.entries, payloadKind e.payload = payloadKind victim.payload → inTransmission s e = false →
        e.age ≤ victim.age) →
      let t := offer p s
      let taken := s.queue.entries.filter (fun e => e.ident != victim.ident) ++
        [⟨s.queue.nextIdent, s.queue.nextIdent, p⟩]
      let dropped := post (.frameDropped .displaced (payloadKind victim.payload)
        (frameOrderId (ownNumber s) victim.payload)) s
      t.membership = s.membership ∧ t.timer = s.timer ∧ t.carrier = s.carrier ∧ t.profile = s.profile ∧
      dropped.monitor.notices <+: t.monitor.notices ∧
      ((payloadKind victim.payload = .hello ∨ payloadKind victim.payload = .epoch) →
        t.queue.entries = taken ∧ t.monitor = dropped.monitor ∧ t.orders = s.orders ∧ t.bus.sending = s.bus.sending) ∧
      (∀ origin seq, victim.payload = .vote origin seq .accept →
        t.queue.entries = taken ∧ t.monitor = dropped.monitor ∧ openBallots t = openBallots s ∧
        liveOrders t = (liveOrders s).map fun o => if o.id = ⟨origin, seq⟩ then { o with vote := .unsent } else o) ∧
      (∀ seq target mask tone mode b, victim.payload = .propose seq target mask tone mode →
        frameOrderId (ownNumber s) p ≠ some (ownId s seq) → ballotWithSeq s seq = some b → b.state = .awaitingSend →
        b.target = target →
        liveOrders t = (liveOrders s).filter (fun o => o.id != ownId s seq) ∧
        openBallots t = (openBallots s).filter (fun x => x.seq != seq) ∧
        t.queue.entries = taken.filter (fun e => inTransmission s e ||
          frameOrderId (ownNumber s) e.payload != some (ownId s seq)) ∧
        t.monitor = (post (.orderAborted (ownNumber s) (ownId s seq) .unsent) dropped).monitor) ∧
      (∀ seq target b, victim.payload = .commit seq target → ballotWithSeq s seq = some b → b.state = .committing →
        b.target = target →
        (∀ o ∈ liveOrders t, o.id ≠ ownId s seq) ∧ (∀ x ∈ openBallots t, x.seq ≠ seq) ∧
        (s.monitor.notices.length = 0 → s.profile.noticeMask.getLsbD 13 = true →
          ∃ n ∈ t.monitor.notices, n.report = .orderAborted (ownNumber s) (ownId s seq) .commitLost))) ∧
    (∀ (victim : QueueEntry) (a : Sending), s.queue.entries.length = 8 →
      (∀ e ∈ s.queue.entries, sameLimit p e.payload = false) → victim ∈ s.queue.entries →
      s.bus.sending = some a → a.ident = victim.ident → a.displaced = false →
      kindCode (payloadKind p) < kindCode (payloadKind victim.payload) →
      (∀ e ∈ s.queue.entries, e.ident ≠ victim.ident →
        kindCode (payloadKind e.payload) < kindCode (payloadKind victim.payload)) →
      let t := offer p s
      t.queue.entries = s.queue.entries.filter (fun e => e.ident != victim.ident) ++
        [⟨s.queue.nextIdent, s.queue.nextIdent, p⟩] ∧
      t.bus.sending = some { a with displaced := true } ∧ t.monitor = s.monitor ∧ t.orders = s.orders ∧
      t.membership = s.membership ∧ t.timer = s.timer ∧ t.carrier = s.carrier)

/-- An abort at the originator (R13): the order and its ballot are gone, no waiting frame of the order is left but the ABORT,
ABORT is queued unless the reason is UNSENT, in a full queue too while a frame of another kind is held, and ORDER_ABORTED is
posted; a queue that holds eight ABORTs of other orders refuses it with FRAME_DROPPED. -/
def Obligations.AbortEndsAnOwnOrder : Prop :=
  ∀ (b : Ballot) (reason : AbortReason) (refuser : StationNo) (s : State),
    QueueInLimits s → s.membership.leaving = none →
    let t := abortOwn b reason refuser s
    let aborted := fun u : State => post (.orderAborted refuser (ownId s b.seq) reason) u
    (∀ o ∈ liveOrders t, o.id ≠ ownId s b.seq) ∧ (∀ x ∈ openBallots t, x.seq ≠ b.seq) ∧
    (∀ e ∈ t.queue.entries, frameOrderId (ownNumber s) e.payload = some (ownId s b.seq) →
      (e ∈ s.queue.entries ∧ inTransmission s e = true) ∨
        (e.payload = .abort b.seq b.target reason refuser ∧ reason ≠ .unsent)) ∧
    (reason ≠ .unsent →
      s.queue.entries.length < 8 ∨ (∃ e ∈ s.queue.entries, payloadKind e.payload ≠ .abort) →
      ∃ e ∈ t.queue.entries, e.payload = .abort b.seq b.target reason refuser) ∧
    (reason = .unsent → ∀ e ∈ t.queue.entries, e ∈ s.queue.entries) ∧
    (reason = .unsent ∨ s.queue.entries.length < 8 → t.monitor = (aborted s).monitor) ∧
    (reason ≠ .unsent → s.queue.entries.length = 8 →
      (∀ e ∈ s.queue.entries, payloadKind e.payload = .abort ∧
        frameOrderId (ownNumber s) e.payload ≠ some (ownId s b.seq)) →
      t.queue.entries = s.queue.entries ∧
      t.monitor = (aborted (post (.frameDropped .refused .abort (some (ownId s b.seq))) s)).monitor) ∧
    (s.monitor.notices.length = 0 → s.profile.noticeMask.getLsbD 13 = true →
      ∃ n ∈ t.monitor.notices, n.report = .orderAborted refuser (ownId s b.seq) reason) ∧
    t.profile = s.profile ∧ t.timer = s.timer ∧ t.membership = s.membership ∧ t.carrier = s.carrier ∧
    t.orders.sequence = s.orders.sequence

/-- A withdrawal from FORMING, ARRIVING or MEMBER (R116, R118, R26): the count and the destination, WITHDRAWN, LEAVING without
claims, counter, orders, ballots or Roster, the carrier reset, and in the queue nothing but the frame in transmission, the
ORIGIN_LEAVING ABORTs and the LEAVE. Every open ballot whose COMMIT is not in transmission, and no other, has its
ORIGIN_LEAVING ABORT, which a queue with at most four ABORTs always takes, and its ORDER_ABORTED. -/
def Obligations.WithdrawalLeavesTheCohort : Prop :=
  ∀ (cause : Cause) (s : State), QueueInLimits s → TablesFollowState s →
    s.membership.state = .forming ∨ s.membership.state = .arriving ∨ s.membership.state = .member →
    let toListen := cause = .holdFault ∨ cause = .tally
    let count := if toListen then min (s.membership.withdrawals + 1) 15 else s.membership.withdrawals
    let limited := toListen ∧ s.profile.rejoinLimit ≠ 0 ∧ s.profile.rejoinLimit ≤ count
    let destination : Destination := if toListen ∧ ¬ limited then .listen else .idle
    let t := withdraw cause s
    t.membership.state = .leaving ∧ t.membership.leaving = some ⟨s.membership.state, cause, destination⟩ ∧
    t.membership.withdrawals = count ∧ t.membership.blindHorizon = none ∧
    (∀ n, rosterEntry t n = ⟨.absent, none, 0⟩) ∧ formationSize t.membership.formation = 0 ∧
    t.timer.grid = none ∧ pullsHold t = false ∧ t.timer.lastReading = s.timer.lastReading ∧
    liveOrders t = [] ∧ openBallots t = [] ∧ t.orders.sequence = s.orders.sequence ∧
    t.carrier = { s.carrier with
      accumulator := 0, frequency := 0, amplitude := 0, current := none, synced := false, delayLine := [], port := 0 } ∧
    (∀ e ∈ t.queue.entries, isLeavingFrame e.payload = true ∨ (e ∈ s.queue.entries ∧ inTransmission s e = true)) ∧
    (∃ e ∈ t.queue.entries, e.payload = .leave cause) ∧
    (∀ b ∈ openBallots s, commitOnBus s b.seq b.target = false →
      ((s.queue.entries.filter fun e => payloadKind e.payload == .abort).length ≤ 4 →
        ∃ e ∈ t.queue.entries, e.payload = .abort b.seq b.target .originLeaving (ownNumber s)) ∧
      (s.monitor.notices.length ≤ 7 → s.profile.noticeMask.getLsbD 13 = true →
        ⟨.orderAborted (ownNumber s) (ownId s b.seq) .originLeaving, none⟩ ∈ t.monitor.notices)) ∧
    (∀ e ∈ t.queue.entries, ∀ seq target refuser, e.payload = .abort seq target .originLeaving refuser →
      refuser = ownNumber s ∧
        ∃ b ∈ openBallots s, b.seq = seq ∧ b.target = target ∧ commitOnBus s seq target = false) ∧
    (s.monitor.notices.length < 16 → s.profile.noticeMask.getLsbD 4 = true →
      t.monitor.notices[s.monitor.notices.length]? =
        some ⟨.withdrawn cause destination (decide limited), s.timer.grid.map fun g => g.counter⟩) ∧
    t.monitor.tallies = s.monitor.tallies ∧ t.profile = s.profile ∧ t.clock = s.clock ∧ t.pending = s.pending

/-- A return to LISTEN with ALIGN_FAILED (R111): the notice, no claim, counter, order or Roster entry, the carrier reset, the
tallies and the last mark reading cleared, a new listen span, and in the queue at most the frame in transmission. -/
def Obligations.AlignFailedReturnsToListen : Prop :=
  ∀ (why : AlignFailure) (s : State),
    s.membership.state = .aligning ∨ s.membership.state = .arriving →
    let t := alignFailed why s
    t.membership.state = .listen ∧ t.membership.listenTimer = 0 ∧ t.membership.cohortSeen = false ∧
    t.membership.mismatch = 0 ∧ t.membership.blindHorizon = none ∧
    t.membership.withdrawals = s.membership.withdrawals ∧ (∀ n, rosterEntry t n = ⟨.absent, none, 0⟩) ∧
    t.timer.grid = none ∧ pullsHold t = false ∧ t.timer.lastReading = none ∧ t.timer.reference = none ∧
    liveOrders t = [] ∧ openBallots t = [] ∧ t.orders.sequence = s.orders.sequence ∧
    t.carrier = { s.carrier with
      accumulator := 0, frequency := 0, amplitude := 0, current := none, synced := false, delayLine := [], port := 0 } ∧
    t.queue.entries = s.queue.entries.filter (inTransmission s) ∧
    t.monitor = { (post (.alignFailed why) s).monitor with tallies := ⟨0, 0, 0, 0, 0, 0⟩ } ∧
    t.profile = s.profile ∧ t.clock = s.clock ∧ t.pending = s.pending

/-! ### The clock, the named points and the hold line -/

/-- CARRIER_SAMPLE is one reference clock (R181): the sample enters the delay line, the port shows the sample of 9 + output
delay clocks ago at a LIVE station and 0 elsewhere, and the frequency word is added (R73, R81). The epoch phase goes on to
L − 1 and then makes the boundary due (R29), the span timer of the station state goes on to its span (R90, R96, R98, R107), the
slot timer goes on (R135), and the local port reads its pins (R172). That the counts wait at their end is the model's choice
(assumption 3), and so is the list of inputs (assumption 22). The clock that ends a spoil slot with a withdrawal asked for is
`FailedFramesAreSpoiledOrDiscarded`. -/
def Obligations.ReferenceClockAdvancesTheCarrier : Prop :=
  ∀ s : State, (pinsNow s).rstn = .high → s.bus.withdrawAsked = false → ∃ t, exec .carrierSample s = .next t ∧
    let span := s.profile.listenFactor * 2 ^ s.profile.markExp * 2 ^ s.profile.epochExp
    t.carrier.accumulator = s.carrier.accumulator + s.carrier.frequency ∧
    t.carrier.delayLine[0]? = some (sampleOf s.carrier.accumulator s.carrier.amplitude) ∧
    (∀ k, k < 263 → t.carrier.delayLine[k + 1]? = s.carrier.delayLine[k]?) ∧
    t.carrier.port = (if s.membership.state = .member ∧ s.carrier.synced = true then
      BitVec.ofInt 16 (s.carrier.delayLine[9 + s.profile.outputDelay - 1]?.getD 0) else 0) ∧
    t.carrier.frequency = s.carrier.frequency ∧ t.carrier.amplitude = s.carrier.amplitude ∧
    t.carrier.current = s.carrier.current ∧ t.carrier.synced = s.carrier.synced ∧ t.carrier.tones = s.carrier.tones ∧
    t.timer = { s.timer with grid := s.timer.grid.map fun g =>
      if g.phase + 1 < epochLength s.profile then { g with phase := g.phase + 1 } else { g with due := true } } ∧
    t.membership = (match s.membership.state with
      | .listen => { s.membership with listenTimer := min (s.membership.listenTimer + 1) span }
      | .forming => { s.membership with
          repeatTimer := min (s.membership.repeatTimer + 1) span
          slowTimer := if s.membership.slowPosted then s.membership.slowTimer
            else min (s.membership.slowTimer + 1) (8 * span) }
      | .aligning => { s.membership with alignTimer := min (s.membership.alignTimer + 1) span }
      | _ => s.membership) ∧
    (s.membership.state = .idle → t.bus = s.bus) ∧
    (s.membership.state ≠ .idle → s.bus.slotTimer + 1 < s.profile.slotDivider →
      t.bus = { s.bus with slotTimer := s.bus.slotTimer + 1 }) ∧
    (s.membership.state ≠ .idle → s.profile.slotDivider ≤ s.bus.slotTimer + 1 →
      t.bus.slotTimer = 0 ∧ t.bus.slotRead = false ∧ t.bus.sending = s.bus.sending ∧
      t.bus.attempts = s.bus.attempts ∧ t.bus.attemptsFor = s.bus.attemptsFor) ∧
    t.localPort = clockPort (pinsNow s) s.localPort ∧ t.inputs = s.inputs.tail ∧ t.resetPin = .high ∧
    t.profile = s.profile ∧ t.response = s.response ∧ t.orders = s.orders ∧ t.queue = s.queue ∧
    t.monitor = s.monitor ∧ t.clock = s.clock + 1 ∧ t.pending = s.pending

/-- Samples of the table of R74, at six phases and two amplitudes, and three properties of every sample: it is 0 at amplitude 0,
the opposite of the sample half a turn away, and the same for accumulators that agree above their low 18 bits. That the samples
between those phases are the rounded sine is not stated here (assumption 20). -/
def Obligations.SampleTableValuesAndSymmetries : Prop :=
  ([0, 2048, 4096, 8192, 12288, 14336].map fun p => sampleOf (BitVec.ofNat 32 (p * 2 ^ 18)) 4095) =
    [0, 23165, 32760, 0, -32760, -23165] ∧
  ([0, 2048, 4096, 8192, 12288, 14336].map fun p => sampleOf (BitVec.ofNat 32 (p * 2 ^ 18)) 1000) =
    [0, 5657, 8000, 0, -8000, -5657] ∧
  (∀ accumulator, sampleOf accumulator 0 = 0) ∧
  (∀ accumulator amplitude, sampleOf (accumulator + BitVec.ofNat 32 (2 ^ 31)) amplitude =
    - sampleOf accumulator amplitude) ∧
  ∀ accumulator low amplitude, accumulator.toNat / 2 ^ 18 = low.toNat / 2 ^ 18 →
    sampleOf accumulator amplitude = sampleOf low amplitude

/-- EPOCH_BOUNDARY, when the boundary is due: the counter advances by one and the phase returns to 0 in every state that keeps a
counter (R29), and the blind horizon is cleared at the boundary that follows it (R112); where the new epoch is no mark epoch,
closes no vote, is no order's target and does not follow the blind horizon, nothing else changes (R30); without a counter there
is no boundary (R32). That a boundary waits for its command, and comes at no other clock, is the model's choice (assumption 3),
and so is the record of the points taken, which begins again at 0 (assumption 6). -/
def Obligations.BoundaryAdvancesTheCounter : Prop :=
  ∀ (ch : Level) (s : State),
    (s.timer.grid = none → exec (.epochBoundary ch) s = .next s) ∧
    ∀ g, s.timer.grid = some g →
      (g.due = false → exec (.epochBoundary ch) s = .next s) ∧
      (g.due = true →
      (∀ t h, exec (.epochBoundary ch) s = .next t → t.timer.grid = some h →
        h.counter = g.counter + 1 ∧ h.phase = 0 ∧ h.due = false ∧
        t.membership.blindHorizon =
          if s.membership.blindHorizon = some g.counter then none else s.membership.blindHorizon) ∧
      (isMarkEpoch s.profile (g.counter + 1) = false →
        (∀ b ∈ openBallots s, b.target - BitVec.ofNat 16 s.profile.commitLead ≠ g.counter + 1) →
        (∀ o ∈ liveOrders s, o.target ≠ g.counter + 1) →
        exec (.epochBoundary ch) s = .next { s with
          timer := { s.timer with grid := some ⟨g.counter + 1, 0, 0, false⟩ }
          membership := { s.membership with blindHorizon :=
            if s.membership.blindHorizon = some g.counter then none else s.membership.blindHorizon } }))

/-- The order whose target is the new epoch leaves the Schedule FIRED, at a mark boundary and beside a vote close too: an armed
order of the station's group sets the carrier from the station's own tone entry, or silences it when that entry is not valid;
any other order, and one that was not sampled, changes no carrier (R60 to R63, R75 to R77). ORDER_FIRED is posted, and LIVE
after it where the output becomes LIVE (R80); that order of the two is DEDUCED (assumption 11), and so is that both come before
the notices of the mark boundary, PEER_LOST among them: the order of the actions of one boundary is the model's choice
(assumption 7). -/
def Obligations.DueOrderFires : Prop :=
  ∀ (ch : Level) (s : State) (g : Grid) (o : Order),
    s.timer.grid = some g → g.due = true → gridState s.membership.state = true → ScheduleDistinct s →
    TablesFollowState s → o ∈ liveOrders s → o.target = g.counter + 1 →
    let quietVotes := ∀ b ∈ openBallots s, b.target - BitVec.ofNat 16 s.profile.commitLead ≠ g.counter + 1
    quietVotes ∨ o.id.origin ≠ ownNumber s ∨ (∀ b ∈ openBallots s, b.seq ≠ o.id.seq) →
    let applied := o.armed = true ∧ inMask o.mask s.profile.group = true
    let e := toneAt s o.tone
    let synced := s.carrier.synced = true ∨
      (o.mode = .restart ∧ ∀ h, s.membership.blindHorizon = some h → aheadOf h o.target = true)
    let fired := postNotice s.profile.noticeMask ⟨.orderFired o.id (decide applied), some (g.counter + 1)⟩ s.monitor
    let told :=
      if applied ∧ e.valid = true ∧ s.membership.state = .member ∧ s.carrier.synced = false ∧ synced then
        postNotice s.profile.noticeMask ⟨.live (some o.tone), some (g.counter + 1)⟩ fired
      else fired
    ∃ t, exec (.epochBoundary ch) s = .next t ∧
      (∀ x ∈ liveOrders t, x.id ≠ o.id) ∧ t.timer.grid = some ⟨g.counter + 1, 0, 0, false⟩ ∧
      (¬ applied → t.carrier = s.carrier) ∧
      (applied → e.valid = true → t.carrier = { s.carrier with
        accumulator := if o.mode = .restart then BitVec.ofNat 32 (e.offset.toNat * 65536) else s.carrier.accumulator
        frequency := e.frequency, amplitude := e.amplitude, current := some o.tone, synced := decide synced }) ∧
      (applied → e.valid = false → t.carrier = { s.carrier with
        accumulator := 0, frequency := 0, amplitude := 0, current := none, synced := false, port := 0 }) ∧
      t.membership.state = s.membership.state ∧ t.profile = s.profile ∧
      (quietVotes → told.notices <+: t.monitor.notices) ∧
      (quietVotes → isMarkEpoch s.profile (g.counter + 1) = false →
        liveOrders t = (liveOrders s).filter (fun x => x.id != o.id) ∧ t.monitor = told ∧
        t.timer = { s.timer with grid := some ⟨g.counter + 1, 0, 0, false⟩ } ∧
        t.membership.roster = s.membership.roster) ∧
      (isMarkEpoch s.profile (g.counter + 1) = true → t.timer.claims = { s.timer.claims with mark := true })

/-- At its vote close, at a mark boundary too, a ballot that is not settled by a frame on the bus is gone with its order (R12):
with UNSENT and no ABORT if its PROPOSE is still queued, with TIMEOUT and an ABORT otherwise, and ORDER_ABORTED is the first
notice of the boundary where the queue has a free place: that it comes before an ORDER_FIRED or a PEER_LOST of the same boundary
is the model's choice of the order of the actions there (assumption 7). One whose PROPOSE or COMMIT is on the bus stays open for
the outcome. -/
def Obligations.VoteCloseEndsUnsettledBallots : Prop :=
  ∀ (ch : Level) (s : State) (g : Grid) (b : Ballot),
    s.timer.grid = some g → g.due = true → TablesFollowState s → ScheduleDistinct s → BallotsFollowOrders s →
    QueueInLimits s → b ∈ openBallots s → b.target - BitVec.ofNat 16 s.profile.commitLead = g.counter + 1 →
    let settledByFrame := (b.state = .awaitingSend ∧ proposeOnBus s b.seq b.target = true) ∨
      (b.state = .committing ∧ commitOnBus s b.seq b.target = true)
    let reason : AbortReason := if b.state = .awaitingSend then .unsent else .timeout
    ∃ t, exec (.epochBoundary ch) s = .next t ∧
      (¬ settledByFrame → (∀ o ∈ liveOrders t, o.id ≠ ownId s b.seq) ∧ (∀ x ∈ openBallots t, x.seq ≠ b.seq) ∧
        (s.queue.entries.length < 8 →
          (postNotice s.profile.noticeMask
            ⟨.orderAborted (ownNumber s) (ownId s b.seq) reason, some (g.counter + 1)⟩ s.monitor).notices <+:
              t.monitor.notices ∧
          (b.state ≠ .awaitingSend →
            ∃ e ∈ t.queue.entries, e.payload = .abort b.seq b.target .timeout (ownNumber s))) ∧
        (b.state = .awaitingSend → ∀ e ∈ t.queue.entries, payloadKind e.payload = .abort →
          frameOrderId (ownNumber s) e.payload = some (ownId s b.seq) →
          e ∈ s.queue.entries ∧ inTransmission s e = true)) ∧
      (settledByFrame → b.target ≠ g.counter + 1 →
        (∃ x ∈ openBallots t, x.seq = b.seq ∧ x.target = b.target ∧ x.state = b.state) ∧
        (isMarkEpoch s.profile (g.counter + 1) = false → b ∈ openBallots t))

/-- A mark boundary at a MEMBER or ARRIVING station (R35, R43, R106, R130): the mark claim is taken with the lead measured at
the pull, the silence of every present peer rises and those that reach S are ABSENT with PEER_LOST(SILENT), the running
mismatch record is empty and a waiting EPOCH of an earlier mark is gone. At a MEMBER the quiet count and the member mark count
rise (R118, R131), and at S/2 or more a HELLO(MEMBER) is queued unless one waits (R131). The ident of the HELLO is the model's
(assumption 9), and that peers are lost lowest number first is too (assumption 7). -/
def Obligations.MarkBoundaryAtAMember : Prop :=
  ∀ (ch : Level) (s : State) (g : Grid),
    s.timer.grid = some g → g.due = true → s.membership.state = .member ∨ s.membership.state = .arriving →
    TablesFollowState s →
    isMarkEpoch s.profile (g.counter + 1) = true → openBallots s = [] → (∀ o ∈ liveOrders s, o.target ≠ g.counter + 1) →
    let lead := match ch, s.timer.leadFall with
      | .high, _ => 0
      | .low, some fall => min (s.clock - fall) (epochLength s.profile / 8)
      | .low, none => epochLength s.profile / 8
    let member := s.membership.state = .member
    let quiet := min (s.membership.quiet + 1) s.profile.silenceLimit
    let kept := s.queue.entries.filter fun e => match e.payload with
      | .epoch m _ _ => inTransmission s e || !aheadOf m (g.counter + 1)
      | _ => true
    let lost := allStations.filter fun n => (rosterEntry s n).presence != .absent &&
      decide (s.profile.silenceLimit ≤ (rosterEntry s n).silence + 1)
    let noHello := ∀ e ∈ kept, payloadKind e.payload ≠ .hello
    let helloWaits := ∃ e ∈ kept, payloadKind e.payload = .hello ∧ inTransmission s e = false
    ∃ t, exec (.epochBoundary ch) s = .next t ∧
      t.timer.grid = some ⟨g.counter + 1, 0, 0, false⟩ ∧ t.timer.claims = { s.timer.claims with mark := true } ∧
      t.timer.provisional = some ⟨g.counter + 1, lead, none, none⟩ ∧
      (∀ n, rosterEntry t n =
        if (rosterEntry s n).presence = .absent then rosterEntry s n
        else if (rosterEntry s n).silence + 1 < s.profile.silenceLimit then
          { rosterEntry s n with silence := (rosterEntry s n).silence + 1 }
        else ⟨.absent, none, 0⟩) ∧
      (member → t.membership.quiet = quiet ∧ t.membership.memberMarks = min (s.membership.memberMarks + 1) 64 ∧
        t.membership.withdrawals = (if 63 ≤ s.membership.memberMarks then 0 else s.membership.withdrawals)) ∧
      (¬ member → t.membership.quiet = s.membership.quiet ∧ t.membership.memberMarks = s.membership.memberMarks ∧
        t.membership.withdrawals = s.membership.withdrawals) ∧
      (¬ member ∨ quiet < s.profile.silenceLimit / 2 ∨ helloWaits → t.queue.entries = kept) ∧
      (member → s.profile.silenceLimit / 2 ≤ quiet → noHello → kept.length < 8 → t.queue.entries = kept ++
        [⟨s.queue.nextIdent, s.queue.nextIdent, .hello .member s.profile.group (digestOf s.profile)⟩]) ∧
      (¬ member ∨ quiet < s.profile.silenceLimit / 2 ∨ helloWaits ∨ (noHello ∧ kept.length < 8) →
        t.monitor = lost.foldl (fun m n => postNotice s.profile.noticeMask
          ⟨.peerLost n .silent, some (g.counter + 1)⟩ m) s.monitor) ∧
      t.membership.runningMismatch = 0 ∧ t.membership.state = s.membership.state ∧ t.orders = s.orders ∧
      t.carrier = s.carrier

/-- MARK_RELEASE while the mark claim stands: a high line is a hold fault; otherwise the claim is released, the clock of the
release is recorded and a MEMBER with no EPOCH on the bus offers EPOCH (R35, R40, R44, R103). Without the claim, or at another
phase, nothing happens (R31). The record that the point has been taken is the model's (assumption 6). -/
def Obligations.MarkReleaseReleasesTheClaim : Prop :=
  ∀ s : State,
    (s.timer.grid = none ∨ s.timer.claims.mark = false →
      exec (.markRelease .low) s = .next s ∧ exec (.markRelease .high) s = .next s) ∧
    ∀ g, s.timer.grid = some g → s.timer.claims.mark = true →
      (g.phase ≠ epochLength s.profile / 2 ∨ epochLength s.profile / 2 ≤ g.point →
        exec (.markRelease .low) s = .next s ∧ exec (.markRelease .high) s = .next s) ∧
      (g.phase = epochLength s.profile / 2 → g.point < epochLength s.profile / 2 →
        let released : State := { s with timer := { s.timer with
          grid := some { g with point := epochLength s.profile / 2 }
          claims := { s.timer.claims with mark := false }
          provisional := s.timer.provisional.map fun r => { r with released := some s.clock } } }
        exec (.markRelease .low) s = .next (
          if s.membership.state = .member ∧ ∀ a, s.bus.sending = some a → payloadKind a.payload ≠ .epoch then
            offer (.epoch g.counter g.counter (digestOf s.profile)) released
          else released) ∧
        exec (.markRelease .high) s = .next (withdraw .holdFault
          { released with timer := { released.timer with provisional := none } }))

/-- VETO_POINT takes the veto claim exactly for a PENDING order or one with a veto request (R53), and fixes an open lag at L/8
(R44). A VETO taken before the point makes the station claim, and one taken after it is refused TOO_LATE (R66), by the
model's record of the points taken (assumption 6). -/
def Obligations.VetoPointClaimsByTheRecord : Prop :=
  ∀ (s : State) (g : Grid), s.timer.grid = some g → g.phase = 5 * epochLength s.profile / 8 →
    g.point < 5 * epochLength s.profile / 8 →
    let claims := fun u : State => u.timer.claims.veto = true ∨
      ∃ o, orderWithTarget u (g.counter + 1) = some o ∧ (o.state = .pending ∨ o.vetoRequest = true)
    (∃ t, exec .vetoPoint s = .next t ∧
      t = { s with timer := { s.timer with
        grid := some { g with point := 5 * epochLength s.profile / 8 }
        claims := { s.timer.claims with veto := decide (s.timer.claims.veto = true ∨
          (orderWithTarget s (g.counter + 1)).any (fun o => o.state == .pending || o.vetoRequest) = true) }
        provisional := s.timer.provisional.map fun r =>
          { r with lag := some (r.lag.getD (epochLength s.profile / 8)) } } } ∧
      (t.timer.claims.veto = true ↔ claims s)) ∧
    ∀ (o : Order) (origin seq : Byte), ScheduleDistinct s → o ∈ liveOrders s → o.target = g.counter + 1 →
      o.id.origin.val = origin.toNat → o.id.seq = seq →
      s.membership.state = .arriving ∨ s.membership.state = .member → takesRequest (.veto origin seq) s = true →
      (∃ t u, exec (.veto origin seq) s = .next t ∧ t.response = ⟨0x09, .ok, none, []⟩ ∧
        exec .vetoPoint t = .next u ∧ u.timer.claims.veto = true) ∧
      ∃ t, exec .vetoPoint s = .next t ∧
        exec (.veto origin seq) t = .next { t with response := ⟨0x09, .refused, some .tooLate, []⟩ }

/-- VETO_SAMPLE (R38 to R40, R45, R46, R55 to R59): a low line retires the order of the next epoch VETOED, a high line without an
own claim arms it, a high line against the own claim withdraws the station, a low line with neither order nor claim counts
STRAY, and nothing else happens while no mark reading waits. A reading that waits at a MEMBER becomes the last mark reading,
with SKEW and SKEW_WIDE if lead and lag together exceed W, unless the sample shows a stray hold or a hold fault, which discard
it; an order that is due at that sample is armed or VETOED all the same. That the order is decided before the reading is kept
is the model's choice (assumption 32), and the record of the points taken is the model's (assumption 6). -/
def Obligations.VetoSampleDecidesTheNextOrder : Prop :=
  ∀ (s : State) (g : Grid), s.timer.grid = some g → g.phase = 3 * epochLength s.profile / 4 →
    g.point < 3 * epochLength s.profile / 4 → ScheduleDistinct s →
    let there : State := { s with timer := { s.timer with
      grid := some { g with point := 3 * epochLength s.profile / 4 } } }
    let settled := fun (asked : Bool) (u : State) => if asked = true then withdraw .tally u else u
    (s.timer.provisional = none →
    (∀ o ∈ liveOrders s, o.target = g.counter + 1 →
      (∃ t, exec (.vetoSample .low) s = .next t ∧
        liveOrders t = (liveOrders s).filter (fun x => x.id != o.id) ∧
        t.monitor = postNotice s.profile.noticeMask
          ⟨.orderVetoed o.id s.timer.claims.veto, some g.counter⟩ s.monitor ∧
        t.timer = there.timer ∧ t.membership = s.membership ∧ t.carrier = s.carrier ∧ t.profile = s.profile) ∧
      (s.timer.claims.veto = false → ∃ t, exec (.vetoSample .high) s = .next t ∧
        liveOrders t = (liveOrders s).map (fun x => if x.id = o.id then { x with armed := true } else x) ∧
        t = { there with orders := { s.orders with schedule := t.orders.schedule } })) ∧
    (s.timer.claims.veto = true →
      exec (.vetoSample .high) s = .next (withdraw .holdFault there)) ∧
    ((∀ o ∈ liveOrders s, o.target ≠ g.counter + 1) →
      (s.timer.claims.veto = false → exec (.vetoSample .high) s = .next there) ∧
      (s.timer.claims.veto = true → exec (.vetoSample .low) s = .next there) ∧
      (s.timer.claims.veto = false → exec (.vetoSample .low) s =
        .next (settled (countTally .stray there).2 (countTally .stray there).1)))) ∧
    ∀ r, s.timer.provisional = some r → r.mark = g.counter → s.membership.state = .member →
      let lag := r.lag.getD (epochLength s.profile / 8)
      let keeping : State := { there with timer := { there.timer with
        provisional := none, lastReading := some ⟨g.counter, r.lead, lag⟩ } }
      let discarding : State := { there with timer := { there.timer with provisional := none } }
      ((∀ o ∈ liveOrders s, o.target ≠ g.counter + 1) →
        (s.timer.claims.veto = false → r.lead + lag ≤ s.profile.skewWindow →
          exec (.vetoSample .high) s = .next keeping) ∧
        (s.timer.claims.veto = false → s.profile.skewWindow < r.lead + lag →
          let counted := countTally .skew keeping
          exec (.vetoSample .high) s = .next (settled counted.2 (post (.skewWide r.lead lag) counted.1))) ∧
        (s.timer.claims.veto = false →
          let counted := countTally .stray discarding
          exec (.vetoSample .low) s = .next (settled counted.2 counted.1)) ∧
        (s.timer.claims.veto = true → r.lead + lag ≤ s.profile.skewWindow →
          exec (.vetoSample .low) s = .next keeping)) ∧
      (s.timer.claims.veto = true → exec (.vetoSample .high) s = .next (withdraw .holdFault discarding)) ∧
      (∀ o ∈ liveOrders s, o.target = g.counter + 1 → s.timer.claims.veto = false →
        ∃ schedule : Table (Option Order) 16,
        let armed : State := { keeping with orders := { s.orders with schedule := schedule } }
        liveOrders armed = (liveOrders s).map (fun x => if x.id = o.id then { x with armed := true } else x) ∧
        (r.lead + lag ≤ s.profile.skewWindow → exec (.vetoSample .high) s = .next armed) ∧
        (s.profile.skewWindow < r.lead + lag →
          let counted := countTally .skew armed
          exec (.vetoSample .high) s = .next (settled counted.2 (post (.skewWide r.lead lag) counted.1)))) ∧
      (∀ o ∈ liveOrders s, o.target = g.counter + 1 → ∃ t, exec (.vetoSample .low) s = .next t ∧
        let vetoed := postNotice s.profile.noticeMask
          ⟨.orderVetoed o.id s.timer.claims.veto, some g.counter⟩ s.monitor
        vetoed.notices <+: t.monitor.notices ∧
        (r.lead + lag ≤ s.profile.skewWindow →
          liveOrders t = (liveOrders s).filter (fun x => x.id != o.id) ∧ t.monitor = vetoed ∧
          t.timer = keeping.timer ∧ t.membership = s.membership ∧ t.carrier = s.carrier))

/-- The first kept mark reading of an ARRIVING station decides its admission on the lead alone (R45, R46, R114): a lead of at
most W makes it MEMBER, also where lead and lag together exceed W, which counts SKEW and posts SKEW_WIDE first; its
HELLO(MEMBER) replaces a waiting HELLO in place, or is queued, or is refused with FRAME_DROPPED while its HELLO(ARRIVING) is in
transmission or the queue is full of more urgent frames (R152, R153). A larger lead returns it to LISTEN with ALIGN_FAILED, once
the skew has been counted, and a withdrawal that the skew asks for comes before the decision (R163). An order that is due at the
sample is armed by a high line, or retired VETOED by a low one, before the decision on the station (R56, R57), an order of the
two that is the model's choice (assumption 32). The ident of the HELLO is the model's (assumption 9), and so is the record of
the points taken (assumption 6). -/
def Obligations.AdmissionOnTheLead : Prop :=
  ∀ (s : State) (g : Grid) (lead lag : Nat) (released : Option Nat), s.timer.grid = some g →
    g.phase = 3 * epochLength s.profile / 4 → g.point < 3 * epochLength s.profile / 4 →
    s.membership.state = .arriving → s.membership.leaving = none → s.timer.claims.veto = false →
    s.timer.provisional = some ⟨g.counter, lead, released, some lag⟩ → QueueInLimits s → ScheduleDistinct s →
    let wide := s.profile.skewWindow < lead + lag
    let checked := if wide then (post (.skewWide lead lag) (countTally .skew s).1).monitor else s.monitor
    let hello : Payload := .hello .member s.profile.group (digestOf s.profile)
    let refused := (∃ e ∈ s.queue.entries, payloadKind e.payload = .hello ∧ inTransmission s e = true) ∨
      (s.queue.entries.length = 8 ∧ ∀ e ∈ s.queue.entries, kindCode (payloadKind e.payload) < kindCode .hello)
    (lead ≤ s.profile.skewWindow → ¬ (wide ∧ (countTally .skew s).2 = true) →
      refused ∨ (s.queue.entries.length < 8 ∧ (∀ e ∈ s.queue.entries, payloadKind e.payload ≠ .hello)) ∨
        (∃ e ∈ s.queue.entries, payloadKind e.payload = .hello ∧ inTransmission s e = false) →
      ∃ t, exec (.vetoSample .high) s = .next t ∧ t.membership = { s.membership with
          state := .member, memberMarks := 0, quiet := 0 } ∧
        t.timer.lastReading = some ⟨g.counter, lead, lag⟩ ∧ t.timer.provisional = none ∧
        t.queue.entries = (
          if refused then s.queue.entries
          else if ∃ e ∈ s.queue.entries, payloadKind e.payload = .hello then
            s.queue.entries.map fun x =>
              if payloadKind x.payload = .hello then ⟨s.queue.nextIdent, x.age, hello⟩ else x
          else s.queue.entries ++ [⟨s.queue.nextIdent, s.queue.nextIdent, hello⟩]) ∧
        t.carrier = s.carrier ∧ t.orders = { s.orders with schedule := t.orders.schedule } ∧
        liveOrders t = (liveOrders s).map (fun o => if o.target = g.counter + 1 then { o with armed := true } else o) ∧
        ((∀ o ∈ liveOrders s, o.target ≠ g.counter + 1) → t.orders = s.orders) ∧
        outputState t = (if s.carrier.synced then .live else .quiet) ∧
        (let offered := if refused then
            postNotice s.profile.noticeMask ⟨.frameDropped .refused .hello none, some g.counter⟩ checked
          else checked
         let joined := postNotice s.profile.noticeMask ⟨.joined lead, some g.counter⟩ offered
         t.monitor = if s.carrier.synced then
            postNotice s.profile.noticeMask ⟨.live s.carrier.current, some g.counter⟩ joined
          else joined)) ∧
    (wide → (countTally .skew s).2 = true → ∃ t, exec (.vetoSample .high) s = .next t ∧
      t.membership.state = .leaving ∧ t.timer.lastReading = some ⟨g.counter, lead, lag⟩ ∧
      checked.notices <+: t.monitor.notices) ∧
    (s.profile.skewWindow < lead → tallyOf .skew s.monitor.tallies + 1 ≠ s.profile.threshold →
      ∃ t, exec (.vetoSample .high) s = .next t ∧ t.membership.state = .listen ∧ t.timer.grid = none ∧
        t.membership.withdrawals = s.membership.withdrawals ∧
        (s.monitor.notices.length < 15 → s.profile.noticeMask = 0x3FFFF →
          t.monitor.notices = s.monitor.notices ++
            [⟨.skewWide lead lag, some g.counter⟩, ⟨.alignFailed (.lead lead), some g.counter⟩])) ∧
    ∀ o ∈ liveOrders s, o.target = g.counter + 1 →
      ∃ u, exec (.vetoSample .low) s = exec (.vetoSample .high) u ∧
        liveOrders u = (liveOrders s).filter (fun x => x.id != o.id) ∧
        u.monitor = postNotice s.profile.noticeMask ⟨.orderVetoed o.id false, some g.counter⟩ s.monitor ∧
        u.timer = s.timer ∧ u.membership = s.membership ∧ u.carrier = s.carrier ∧ u.profile = s.profile ∧
        QueueInLimits u ∧ ScheduleDistinct u

/-- VETO_RELEASE, MARK_LAG_RISE and CH_FALL: the veto claim is released and the lead window opens (R36, R43), the first rise
after the own release fixes the lag at most at L/8 (R44), and a fall of CH is recorded where it is measured (R43, R49). The
record of the points taken is the model's (assumption 6). -/
def Obligations.HoldLineEventsAreRecorded : Prop :=
  ∀ s : State,
    (∀ g, s.timer.grid = some g → g.phase = 7 * epochLength s.profile / 8 → g.point < 7 * epochLength s.profile / 8 →
      exec .vetoRelease s = .next { s with timer := { s.timer with
        grid := some { g with point := 7 * epochLength s.profile / 8 }
        claims := { s.timer.claims with veto := false }, leadFall := none } }) ∧
    (∀ mark lead released, s.timer.provisional = some ⟨mark, lead, some released, none⟩ →
      exec .markLagRise s = .next { s with timer := { s.timer with
        provisional := some ⟨mark, lead, some released,
          some (min (s.clock - released) (epochLength s.profile / 8))⟩ } }) ∧
    ((∀ r, s.timer.provisional = some r → r.released = none ∨ r.lag ≠ none) → exec .markLagRise s = .next s) ∧
    (s.membership.state = .aligning →
      exec .chFall s = .next { s with timer := { s.timer with pulseFall := some s.clock } }) ∧
    (s.membership.state = .arriving ∨ s.membership.state = .member →
      exec .chFall s = .next { s with timer := { s.timer with leadFall := some s.clock } }) ∧
    (s.membership.state ∉ [StationState.aligning, .arriving, .member] → exec .chFall s = .next s)

/-- The formation rise at a station that has released its claim (R48, R79, R101): MEMBER on epoch 0 with the formation set as
its Roster and the rest tone on its carrier. While the claim stands a high line is a hold fault (R41). -/
def Obligations.FormationRiseMakesAMember : Prop :=
  ∀ s : State,
    (s.membership.state = .forming → s.timer.claims.formation = false →
      ∃ t, exec .formationRise s = .next t ∧ t.membership.state = .member ∧
        t.timer.grid = some ⟨0, 0, 0, false⟩ ∧ pullsHold t = false ∧ t.timer.lastReading = s.timer.lastReading ∧
        (∀ n, rosterEntry t n = match s.membership.formation.get n with
          | some group => if n = s.profile.station then ⟨.absent, none, 0⟩ else ⟨.member, some group, 0⟩
          | none => ⟨.absent, none, 0⟩) ∧
        formationSize t.membership.formation = 0 ∧ t.membership.quiet = 0 ∧ t.membership.memberMarks = 0 ∧
        t.membership.blindHorizon = none ∧ t.membership.withdrawals = s.membership.withdrawals ∧
        t.carrier = { s.carrier with
          accumulator := BitVec.ofNat 32 ((toneAt s 0).offset.toNat * 65536), frequency := (toneAt s 0).frequency
          amplitude := (toneAt s 0).amplitude, current := some 0, synced := true } ∧
        outputState t = .live ∧
        (∀ e ∈ t.queue.entries, e ∈ s.queue.entries ∧
          (isFormingHello e.payload = true → inTransmission s e = true)) ∧
        (∃ size : Nat, t.monitor = postNotice s.profile.noticeMask ⟨.live (some 0), some 0⟩
            (postNotice s.profile.noticeMask ⟨.formed size, some 0⟩ s.monitor) ∧
          size = (allStations.filter fun n => (rosterEntry t n).presence == .member).length + 1) ∧
        t.orders = s.orders ∧ t.profile = s.profile ∧ t.clock = s.clock ∧ t.pending = s.pending) ∧
    (s.membership.state = .forming → s.timer.claims.formation = true →
      exec .formationHoldFault s = .next (withdraw .holdFault s) ∧ exec .formationRise s = .next s) ∧
    (s.membership.state ≠ .forming →
      exec .formationHoldFault s = .next s ∧ exec .formationRise s = .next s)

/-- The end of a low pulse at an ALIGNING station (R49, R50, R110): a mark pulse that fell after the START of the reference
frame sets the counter to e + M and the phase to the pulse length, drops what is not ahead of the counter and makes the
station ARRIVING with HELLO(ARRIVING) queued; a pulse of another length, or without a known fall, is ignored. A mark pulse that
does not qualify may count for the frame being read (R51); which pulse is kept for it, the first one that fell after its START
and none without a frame, is the model's record of that pulse, DEDUCED (assumption 8). The ident of the HELLO is the model's
(assumption 9). -/
def Obligations.AlignmentPulseSetsTheCounter : Prop :=
  ∀ s : State, s.membership.state = .aligning →
    (s.timer.pulseFall = none → exec .alignmentPulseEnd s = .next s) ∧
    ∀ fall, s.timer.pulseFall = some fall →
      let length := s.clock - fall
      let half := epochLength s.profile / 2
      (length + s.profile.skewWindow < half ∨ half + s.profile.skewWindow < length →
        exec .alignmentPulseEnd s = .next { s with timer := { s.timer with pulseFall := none } }) ∧
      (∀ r, half ≤ length + s.profile.skewWindow → length ≤ half + s.profile.skewWindow →
        s.timer.reference = some r → r.start < fall → s.membership.leaving = none →
        s.queue.entries.length < 8 → (∀ e ∈ s.queue.entries, frameOrderId (ownNumber s) e.payload = none ∧
          payloadKind e.payload ≠ .hello) →
        let counter := r.mark + BitVec.ofNat 16 (2 ^ s.profile.markExp)
        ∃ t, exec .alignmentPulseEnd s = .next t ∧
          t.timer.grid = some ⟨counter, length, 0, false⟩ ∧ t.timer.reference = none ∧ t.timer.pulseFall = none ∧
          pullsHold t = false ∧ t.timer.lastReading = s.timer.lastReading ∧
          liveOrders t = (liveOrders s).filter (fun o => aheadOf counter o.target) ∧
          t.membership = { s.membership with
            state := .arriving, alignTimer := 0
            blindHorizon := s.membership.blindHorizon.filter (aheadOf counter) } ∧
          t.queue.entries = s.queue.entries ++ [⟨s.queue.nextIdent, s.queue.nextIdent,
            .hello .arriving s.profile.group (digestOf s.profile)⟩] ∧
          t.carrier = s.carrier ∧ t.monitor = s.monitor ∧ t.profile = s.profile) ∧
      (half ≤ length + s.profile.skewWindow → length ≤ half + s.profile.skewWindow →
        (∀ r, s.timer.reference = some r → fall ≤ r.start) → ∃ kept : Option Nat,
        exec .alignmentPulseEnd s = .next { s with timer := { s.timer with pulseFall := none, endedPulse := kept } } ∧
        (s.bus.reading = none → kept = none) ∧
        ∀ fr, s.bus.reading = some fr → (fall ≤ fr.start → kept = none) ∧
          (fr.start < fall → kept = match s.timer.endedPulse with
            | some earlier => if fr.start < earlier then some earlier else some fall
            | none => some fall))

/-- The ends of the spans: LISTEN_SPAN_END forms alone or listens on (R92, R94, R97), ALIGNMENT_SPAN_END gives up the alignment
(R109), HELLO_FORMING_REPEAT queues HELLO(FORMING) again (R96) and FORMATION_SLOW is posted once (R98), each when its timer has
reached its span. That a span waits there for its command is the model's choice (assumption 3), and so is that in any other
state, or at any other clock, each finds nothing to end (assumption 29). The ident of the HELLO is the model's (assumption
9). -/
def Obligations.SpanEndsActInTheirStates : Prop :=
  ∀ s : State,
    let hello : Payload := .hello .forming s.profile.group (digestOf s.profile)
    let span := s.profile.listenFactor * 2 ^ s.profile.markExp * 2 ^ s.profile.epochExp
    (s.membership.state = .listen → s.membership.listenTimer = span → s.membership.cohortSeen = true →
      exec .listenSpanEnd s = .next { s with membership :=
        { s.membership with listenTimer := 0, cohortSeen := false, mismatch := 0 } }) ∧
    (s.membership.state = .listen → s.membership.listenTimer = span → s.membership.cohortSeen = false →
      s.queue.entries = [] →
      ∃ t, exec .listenSpanEnd s = .next t ∧ t.membership.state = .forming ∧
        (∀ n, t.membership.formation.get n = if n = s.profile.station then some s.profile.group else none) ∧
        t.timer.claims.formation = decide (1 < s.profile.expected) ∧
        t.membership.repeatTimer = 0 ∧ t.membership.slowTimer = 0 ∧ t.membership.mismatch = 0 ∧
        t.queue.entries = [⟨s.queue.nextIdent, s.queue.nextIdent, hello⟩] ∧
        t.orders = s.orders ∧ t.carrier = s.carrier ∧ t.monitor = s.monitor ∧ t.profile = s.profile) ∧
    (s.membership.state ≠ .listen ∨ s.membership.listenTimer ≠ span → exec .listenSpanEnd s = .next s) ∧
    (s.membership.state = .aligning → s.membership.alignTimer = span →
      exec .alignmentSpanEnd s = .next (alignFailed .noMark s)) ∧
    (s.membership.state ≠ .aligning ∨ s.membership.alignTimer ≠ span → exec .alignmentSpanEnd s = .next s) ∧
    (s.membership.state = .forming → s.membership.repeatTimer = span →
      exec .helloFormingRepeat s = .next (offer hello
        { s with membership := { s.membership with repeatTimer := 0, mismatch := 0 } })) ∧
    (s.membership.state ≠ .forming ∨ s.membership.repeatTimer ≠ span → exec .helloFormingRepeat s = .next s) ∧
    (s.membership.state = .forming → s.membership.slowPosted = false → s.membership.slowTimer = 8 * span →
      exec .formationSlow s = .next (post (.formationSlow (formationSize s.membership.formation))
        { s with membership := { s.membership with slowPosted := true } })) ∧
    (s.membership.state ≠ .forming ∨ s.membership.slowPosted = true ∨ s.membership.slowTimer ≠ 8 * span →
      exec .formationSlow s = .next s)

/-! ### The accepted frames -/

/-- A frame is accepted only by a station that runs, sends no frame itself and read a frame that passes (R86, R145, R147), and
whose outcome has not been taken, as a frame is accepted once and an own frame never; an accepted frame that the state does
not hand on is discarded (R87); and no accepted frame changes the profile, the tone table, the response, the sequence counter
or the waiting commands. That an accepted frame whose slots were not read one by one is over at once is the model's choice
(assumption 4). -/
def Obligations.AcceptedFramesReachTheirState : Prop :=
  ∀ (c : Instr) (n : StationNo) (p : Payload) (s : State), c.acceptedFrame = some (n, p) →
    let passed := ∀ r, s.bus.reading = some r → r.settled = false ∧ (checkRead r.slots = true →
      ownTest r.slots = true ∧ frameRead r.slots = some (n, p) ∧ spoilRead r.slots ≠ some false)
    (canAccept s n p = true ↔
      s.membership.state ≠ .idle ∧ s.bus.sending = none ∧ p.WellFormed = true ∧ passed) ∧
    (canAccept s n p = false → exec c s = .next s) ∧
    (canAccept s n p = true → n ≠ ownNumber s →
      (s.membership.state = .leaving ∨
        (s.membership.state = .listen ∧ payloadKind p ≠ .epoch ∧ payloadKind p ≠ .hello) ∨
        (s.membership.state = .forming ∧ payloadKind p ∉ [FrameKind.epoch, .hello, .leave])) →
      exec c s = .next (frameEnds s)) ∧
    (s.bus.reading = none → frameEnds s = { s with bus := { s.bus with idleCount := 0, spoiling := false } }) ∧
    (∀ r, s.bus.reading = some r → checkRead r.slots = true →
      frameEnds s = { s with bus := { s.bus with reading := some { r with settled := true } } }) ∧
    ∃ t, exec c s = .next t ∧ t.profile = s.profile ∧ t.response = s.response ∧ t.carrier.tones = s.carrier.tones ∧
      t.orders.sequence = s.orders.sequence ∧ t.clock = s.clock ∧ t.pending = s.pending

/-- An accepted PROPOSE: a MEMBER judges it by the first condition that holds and votes (R17, R18); an observer records it
without a vote, ignores it when its lead is short, and returns to LISTEN when it cannot record it (R20). That a short lead is
looked at before a conflict is DEDUCED (assumption 25). -/
def Obligations.ProposeIsJudgedOrRecorded : Prop :=
  ∀ (sender : StationNo) (seq : Seq) (target : Epoch) (mask : GroupMask) (tone : ToneIndex) (mode : PhaseMode)
    (s : State), canAccept s sender (.propose seq target mask tone mode) = true → sender ≠ ownNumber s →
    s.membership.leaving = none →
    let frame := exec (.proposeAccepted sender seq target mask tone mode) s
    let order := fun vote : VoteField =>
      (⟨⟨sender, seq⟩, target, mask, tone, mode, .pending, vote, false, false⟩ : Order)
    (∀ g, s.membership.state = .member → s.timer.grid = some g →
      let lead := epochDistance g.counter target
      let verdict : Verdict :=
        if (rosterEntry s sender).presence ≠ .member then .refuse .stranger
        else if ∃ o ∈ liveOrders s, o.id = ⟨sender, seq⟩ then .refuse .dupId
        else if lead < s.profile.commitLead + 2 ∨ 32767 < lead then .refuse .late
        else if inMask mask s.profile.group = true ∧ (toneAt s tone).valid = false then .refuse .noTone
        else if ∃ o ∈ liveOrders s, o.target = target then .refuse .clash
        else if 16 ≤ (liveOrders s).length then .refuse .full
        else .accept
      frame = .next (heardFrom sender (offer (.vote sender seq verdict)
        (if verdict = .accept then addOrder (order .accepted) (frameEnds s) else frameEnds s)))) ∧
    (∀ g, s.membership.state = .arriving → s.timer.grid = some g →
      (epochDistance g.counter target < 2 ∨ 32767 < epochDistance g.counter target) →
      frame = .next (heardFrom sender (frameEnds s))) ∧
    ((s.membership.state = .aligning ∨ (s.membership.state = .arriving ∧ ∃ g, s.timer.grid = some g ∧
        2 ≤ epochDistance g.counter target ∧ epochDistance g.counter target ≤ 32767)) →
      (16 ≤ (liveOrders s).length ∨ (∃ o ∈ liveOrders s, o.id = ⟨sender, seq⟩ ∨ o.target = target) →
        frame = .next (alignFailed .cannotRecord (frameEnds s))) ∧
      ((liveOrders s).length < 16 → (∀ o ∈ liveOrders s, o.id ≠ ⟨sender, seq⟩ ∧ o.target ≠ target) →
        ∃ t, frame = .next t ∧ t = heardFrom sender (addOrder (order .none) (frameEnds s)) ∧
          ∀ x, x ∈ liveOrders t ↔ x ∈ liveOrders s ∨ x = order .none))

/-- An accepted VOTE at the originator, by verdict and ballot state (R9): the vote of an elector is added and a complete
ballot queues COMMIT (R10); a refusal aborts the order with the voter as refuser; everything else leaves the ballots as
they are. -/
def Obligations.VotesSettleTheBallot : Prop :=
  ∀ (voter origin : StationNo) (seq : Seq) (verdict : Verdict) (s : State),
    canAccept s voter (.vote origin seq verdict) = true → voter ≠ ownNumber s → s.membership.state = .member →
    s.membership.leaving = none →
    let frame := exec (.voteAccepted voter origin seq verdict) s
    let base := frameEnds s
    ((origin ≠ ownNumber s ∨ ballotWithSeq s seq = none) → frame = .next (heardFrom voter base)) ∧
    ∀ b, ballotWithSeq s seq = some b → origin = ownNumber s →
      (verdict = .accept → b.state = .collecting → inSet b.electorate voter = true →
        let counted := updateBallot seq (fun x => { x with accepted := addTo x.accepted voter }) base
        frame = .next (heardFrom voter (
          if subset b.electorate (addTo b.accepted voter) = true then
            offer (.commit seq b.target) (updateBallot seq (fun x => { x with state := .committing }) counted)
          else counted)) ∧
        (inSet b.accepted voter = true → addTo b.accepted voter = b.accepted)) ∧
      (verdict = .accept → (b.state ≠ .collecting ∨ inSet b.electorate voter = false) →
        frame = .next (heardFrom voter base)) ∧
      (∀ ground, verdict = .refuse ground → b.state = .awaitingSend → frame = .next (heardFrom voter base)) ∧
      (∀ ground, verdict = .refuse ground → b.state ≠ .awaitingSend →
        frame = .next (heardFrom voter (abortOwn b (.refused ground) voter base)))

/-- Accepted COMMIT and ABORT frames at a station that records orders (R21, R22): a COMMIT makes the PENDING order of that id
and target READY, leaves a READY one, and posts ORPHAN_COMMIT where there is none; an ABORT removes a PENDING one with its
waiting frames and posts ORDER_ABORTED, and is ignored otherwise. -/
def Obligations.CommitAndAbortSettleTheOrder : Prop :=
  ∀ (sender : StationNo) (seq : Seq) (target : Epoch) (reason : AbortReason) (refuser : StationNo) (s : State),
    sender ≠ ownNumber s → recordingState s.membership.state = true →
    let base := frameEnds s
    let heard := if reason = .originLeaving then heardLeaving sender base else heardFrom sender base
    (canAccept s sender (.commit seq target) = true →
      (∀ o, orderWithId s ⟨sender, seq⟩ = some o → o.target = target → o.state = .pending →
        ∃ schedule : Table (Option Order) 16,
          exec (.commitAccepted sender seq target) s =
            .next (heardFrom sender { base with orders := { s.orders with schedule := schedule } }) ∧
          ∀ slot, schedule.get slot = (s.orders.schedule.get slot).map fun x =>
            if x.id = ⟨sender, seq⟩ then { x with state := .ready } else x) ∧
      (∀ o, orderWithId s ⟨sender, seq⟩ = some o → o.target = target → o.state = .ready →
        exec (.commitAccepted sender seq target) s = .next (heardFrom sender base)) ∧
      ((∀ o, orderWithId s ⟨sender, seq⟩ = some o → o.target ≠ target) →
        exec (.commitAccepted sender seq target) s =
          .next (heardFrom sender (post (.orphanCommit ⟨sender, seq⟩ target) base)))) ∧
    (canAccept s sender (.abort seq target reason refuser) = true →
      ((∀ o, orderWithId s ⟨sender, seq⟩ = some o → o.target = target → o.state = .ready) →
        exec (.abortAccepted sender seq target reason refuser) s = .next heard) ∧
      (∀ o, orderWithId s ⟨sender, seq⟩ = some o → o.target = target → o.state = .pending →
        ∃ t, exec (.abortAccepted sender seq target reason refuser) s = .next t ∧
          liveOrders t = (liveOrders s).filter (fun x => x.id != ⟨sender, seq⟩) ∧
          t.queue.entries = s.queue.entries.filter (fun e =>
            frameOrderId (ownNumber s) e.payload != some ⟨sender, seq⟩) ∧
          t.monitor = (let posted := post (.orderAborted refuser ⟨sender, seq⟩ reason) s
            if reason = .originLeaving then posted.monitor else (heardFrom sender posted).monitor) ∧
          t.membership = heard.membership ∧ t.orders.ballots = s.orders.ballots ∧ t.carrier = s.carrier ∧
          t.timer = s.timer))

/-- An accepted EPOCH before alignment (R91, R93, R99, R107, R108): a matching one moves a LISTEN or FORMING station into
ALIGNING with the frame as its reference and its horizon as the blind horizon, and replaces the reference of an ALIGNING
station; one with another digest posts PROFILE_MISMATCH once for each sender. A mark pulse that fell after the START and has
ended aligns the station at the acceptance (R51), by the model's record of that pulse (assumption 8) and before the Roster is
updated (assumption 34); the START of a frame whose slots were not read is taken at the acceptance (assumption 4). -/
def Obligations.EpochStartsTheAlignment : Prop :=
  ∀ (sender : StationNo) (mark horizon : Epoch) (digest : Digest) (s : State),
    canAccept s sender (.epoch mark horizon digest) = true → sender ≠ ownNumber s →
    let frame := exec (.epochAccepted sender mark horizon digest) s
    let base := frameEnds s
    let start := (s.bus.reading.map fun r => r.start).getD s.clock
    let seen := { base with membership := { s.membership with cohortSeen := true } }
    let referred := { base with timer := { s.timer with reference := some ⟨mark, start⟩, endedPulse := none } }
    (s.membership.state = .listen ∨ s.membership.state = .forming → digest = digestOf s.profile →
      ∃ t, frame = .next t ∧ t.membership.state = .aligning ∧ t.membership.alignTimer = 0 ∧
        t.membership.blindHorizon = some horizon ∧ t.membership.runningMismatch = 0 ∧
        (∀ n, rosterEntry t n = if n = sender then ⟨.member, none, 0⟩ else ⟨.absent, none, 0⟩) ∧
        formationSize t.membership.formation = 0 ∧ t.membership.withdrawals = s.membership.withdrawals ∧
        t.timer.reference = some ⟨mark, start⟩ ∧ t.timer.pulseFall = none ∧ t.timer.grid = none ∧
        pullsHold t = false ∧ t.timer.lastReading = s.timer.lastReading ∧
        t.queue.entries = s.queue.entries.filter (fun e => !isFormingHello e.payload) ∧
        t.orders = s.orders ∧ t.carrier = s.carrier ∧ t.monitor = s.monitor) ∧
    (s.membership.state = .listen → digest ≠ digestOf s.profile → frame = .next (
      if inSet s.membership.mismatch sender = true then seen
      else post (.profileMismatch sender digest) { seen with membership :=
        { seen.membership with mismatch := addTo s.membership.mismatch sender } })) ∧
    (s.membership.state = .forming → digest ≠ digestOf s.profile → frame = .next (
      if inSet s.membership.mismatch sender = true then base
      else post (.profileMismatch sender digest) { base with membership :=
        { s.membership with mismatch := addTo s.membership.mismatch sender } })) ∧
    (recordingState s.membership.state = true → digest ≠ digestOf s.profile → frame = .next (
      if inSet s.membership.runningMismatch sender = true then base
      else post (.profileMismatch sender digest) { base with membership :=
        { s.membership with runningMismatch := addTo s.membership.runningMismatch sender } })) ∧
    (s.membership.state = .aligning → digest = digestOf s.profile →
      (∀ fall, s.timer.endedPulse = some fall → fall ≤ start) → frame = .next (heardFrom sender referred)) ∧
    (∀ fall, s.membership.state = .aligning → digest = digestOf s.profile → s.timer.endedPulse = some fall →
      start < fall → frame = .next (heardFrom sender (align
        (mark + BitVec.ofNat 16 (markInterval s.profile + (s.clock - fall) / epochLength s.profile))
        ((s.clock - fall) % epochLength s.profile) referred)))

/-- An accepted EPOCH of the cohort at an ARRIVING or MEMBER station (R104, R105): a mark epoch that is not the station's own at
the START of the frame counts DISAGREE and posts EPOCH_DISAGREE; one that agrees makes a MEMBER remove its own waiting
EPOCH of that mark. The counter at the START of a frame whose slots were not read is that of the acceptance (assumption 4), and
a counter that was present at the START is compared even if it was set anew since (assumption 33). That EPOCH_DISAGREE comes
before a PEER_JOINED of the same frame is the model's choice (assumption 38). -/
def Obligations.EpochIsComparedWithTheGrid : Prop :=
  ∀ (sender : StationNo) (mark horizon : Epoch) (digest : Digest) (s : State) (g : Grid),
    canAccept s sender (.epoch mark horizon digest) = true → sender ≠ ownNumber s →
    s.membership.state = .arriving ∨ s.membership.state = .member → s.timer.grid = some g →
    digest = digestOf s.profile →
    let frame := exec (.epochAccepted sender mark horizon digest) s
    let atStart : Option Epoch := match s.bus.reading with
      | some r => r.counter
      | none => some g.counter
    ((∀ c, atStart = some c → c.toNat - c.toNat % 2 ^ s.profile.markExp = mark.toNat) →
      ∃ t, frame = .next t ∧
        t.queue.entries = (if s.membership.state = .member then
            s.queue.entries.filter (fun e => match e.payload with
              | .epoch m _ _ => m != mark
              | _ => true)
          else s.queue.entries) ∧
        t.membership = (heardFrom sender s).membership ∧ t.monitor = (heardFrom sender s).monitor ∧
        t.orders = s.orders ∧ t.timer = s.timer ∧ t.carrier = s.carrier) ∧
    ∀ c, atStart = some c → c.toNat - c.toNat % 2 ^ s.profile.markExp ≠ mark.toNat →
      let counted := countTally .disagree (frameEnds s)
      let posted := heardFrom sender (post (.epochDisagree sender mark
        (BitVec.ofNat 16 (c.toNat - c.toNat % 2 ^ s.profile.markExp))) counted.1)
      frame = .next (if counted.2 = true then withdraw .tally posted else posted)

/-- An accepted HELLO by the station's state (R91, R94 to R97, R106, R125, R126, R129). -/
def Obligations.HelloIsTakenByTheState : Prop :=
  ∀ (sender : StationNo) (state : HelloState) (group : Group) (digest : Digest) (s : State),
    canAccept s sender (.hello state group digest) = true → sender ≠ ownNumber s → s.membership.leaving = none →
    let frame := exec (.helloAccepted sender state group digest) s
    let base := frameEnds s
    let own := fun st : HelloState => Payload.hello st s.profile.group (digestOf s.profile)
    let noted := if inSet s.membership.mismatch sender = true then base
      else post (.profileMismatch sender digest) { base with membership :=
        { s.membership with mismatch := addTo s.membership.mismatch sender } }
    (s.membership.state = .listen → digest = digestOf s.profile → state = .forming →
      ∃ t, frame = .next t ∧ t.membership.state = .forming ∧
        (∀ n, t.membership.formation.get n =
          if n = sender then some group else if n = ownNumber s then some s.profile.group else none) ∧
        t.timer.claims.formation = decide (2 < s.profile.expected) ∧
        t.membership.repeatTimer = 0 ∧ t.membership.slowTimer = 0 ∧ t.membership.mismatch = 0 ∧
        t.queue = (offer (own .forming) base).queue ∧ t.monitor = (offer (own .forming) base).monitor ∧
        t.orders = s.orders ∧ t.carrier = s.carrier) ∧
    (s.membership.state = .listen → digest = digestOf s.profile → state ≠ .forming → frame = .next base) ∧
    (s.membership.state = .listen → digest ≠ digestOf s.profile →
      frame = .next (if state = .forming then noted else base)) ∧
    (s.membership.state = .forming → digest ≠ digestOf s.profile → frame = .next noted) ∧
    (s.membership.state = .forming → digest = digestOf s.profile → state ≠ .forming → frame = .next base) ∧
    (s.membership.state = .forming → digest = digestOf s.profile → state = .forming →
      ∃ t, frame = .next t ∧ t.membership.state = .forming ∧
        (∀ n, t.membership.formation.get n =
          if n = sender then some group else s.membership.formation.get n) ∧
        (s.membership.formation.get sender ≠ none →
          t.queue = s.queue ∧ t.monitor = s.monitor ∧ t.timer = s.timer) ∧
        (s.membership.formation.get sender = none →
          t.queue = (offer (own .forming) base).queue ∧ t.monitor = (offer (own .forming) base).monitor ∧
          t.timer.claims.formation = (s.timer.claims.formation &&
            decide (formationSize t.membership.formation < s.profile.expected))) ∧
        t.orders = s.orders ∧ t.carrier = s.carrier) ∧
    (recordingState s.membership.state = true → digest ≠ digestOf s.profile → frame = .next (
      if inSet s.membership.runningMismatch sender = true then base
      else post (.profileMismatch sender digest) { base with membership :=
        { s.membership with runningMismatch := addTo s.membership.runningMismatch sender } })) ∧
    (recordingState s.membership.state = true → digest = digestOf s.profile →
      (state = .forming → frame = .next (
        if (rosterEntry s sender).presence = .absent then base else losePeer sender .restarted base)) ∧
      (state = .arriving →
        let updated := setRoster sender ⟨.arriving, some group, 0⟩
          (if (rosterEntry s sender).presence = .member then losePeer sender .restarted base else base)
        frame = .next (if s.membership.state = .member then offer (own .member) updated else updated)) ∧
      (state = .member →
        let raised := setRoster sender ⟨.member, some group, 0⟩ base
        frame = .next (
          if (rosterEntry s sender).presence ≠ .member ∧ gridState s.membership.state = true then
            post (.peerJoined sender (some group)) raised
          else raised)))

/-- The Roster (R123, R124, R127, R128, R16): a frame makes its sender MEMBER with the group it had; a lost peer is ABSENT, is
reported by a station with a counter, and leaves every electorate, which may complete a ballot; LEAVE makes a present peer
ABSENT, and leaves the formation set of a FORMING station. -/
def Obligations.RosterFollowsTheFrames : Prop :=
  ∀ (n : StationNo) (how : PeerLoss) (reason : Cause) (s : State), n ≠ ownNumber s → s.membership.leaving = none →
    let before := rosterEntry s n
    let group := if before.presence = .absent then none else before.group
    let raised := { s with membership :=
      { s.membership with roster := s.membership.roster.set n ⟨.member, group, 0⟩ } }
    let lost := losePeer n how s
    heardFrom n s = (if before.presence ≠ .member ∧ gridState s.membership.state = true then
      post (.peerJoined n group) raised else raised) ∧
    (∀ m, rosterEntry lost m = if m = n then ⟨.absent, none, 0⟩ else rosterEntry s m) ∧
    lost.membership.state = s.membership.state ∧
    (∀ b ∈ openBallots lost, inSet b.electorate n = false ∧ inSet b.accepted n = false) ∧
    (openBallots s = [] → lost.monitor =
      if gridState s.membership.state = true then (post (.peerLost n how) s).monitor else s.monitor) ∧
    (∀ b, openBallots s = [b] → b.state = .collecting →
      subset (removeFrom b.electorate n) (removeFrom b.accepted n) = true → s.queue.entries.length < 8 →
      openBallots lost = [{ withoutElector n b with state := .committing }] ∧
      lost.queue.entries = s.queue.entries ++
        [⟨s.queue.nextIdent, s.queue.nextIdent, .commit b.seq b.target⟩]) ∧
    (canAccept s n (.leave reason) = true →
      (recordingState s.membership.state = true → exec (.leaveAccepted n reason) s = .next (
        if before.presence = .absent then frameEnds s else losePeer n (.left reason) (frameEnds s))) ∧
      (s.membership.state = .forming → ∃ t, exec (.leaveAccepted n reason) s = .next t ∧
        (∀ m, t.membership.formation.get m = if m = n then none else s.membership.formation.get m) ∧
        t.queue = s.queue ∧ t.timer = s.timer ∧ t.monitor = s.monitor ∧ t.carrier = s.carrier))

/-- An accepted frame with the station's own number takes the station off the bus, on its way to IDLE (R115, R119): in LISTEN at
once, in LEAVING by its destination, and elsewhere by a withdrawal with cause DUPLICATE. Which state counts where the delivery
of the frame has changed it is the model's choice (assumption 12). -/
def Obligations.DuplicateNumberEndsInIdle : Prop :=
  ∀ (c : Instr) (p : Payload) (s : State), c.acceptedFrame = some (ownNumber s, p) →
    canAccept s (ownNumber s) p = true → TablesFollowState s → TimerFollowsState s → QueueInLimits s →
    ∃ t, exec c s = .next t ∧
      (t.membership.state = .idle ∨
        (t.membership.state = .leaving ∧ ∀ l, t.membership.leaving = some l → l.destination = .idle)) ∧
      liveOrders t = [] ∧ openBallots t = [] ∧ (∀ n, rosterEntry t n = ⟨.absent, none, 0⟩) ∧
      t.timer.grid = none ∧ pullsHold t = false ∧
      (s.membership.state = .listen → t.membership.state = .idle ∧ t.queue.entries = [] ∧
        t.membership.withdrawals = s.membership.withdrawals ∧
        (s.monitor.notices.length < 15 → s.profile.noticeMask.getLsbD 4 = true →
          t.monitor.notices.getLast? = some ⟨.withdrawn .duplicate .idle false, none⟩)) ∧
      (s.membership.state = .leaving → t = post (.withdrawn .duplicate .idle false)
        { frameEnds s with membership := { s.membership with
          leaving := s.membership.leaving.map fun l => { l with destination := .idle } } }) ∧
      (s.membership.state = .member → payloadKind p ≠ .epoch →
        t.membership.state = .leaving ∧ t.membership.leaving = some ⟨.member, .duplicate, .idle⟩ ∧
        t.membership.withdrawals = s.membership.withdrawals ∧
        ∃ e ∈ t.queue.entries, e.payload = .leave .duplicate)

/-! ### The Cohort Bus -/

/-- A frame that fails the station's test (R86, R108, R145, R146): a receiver that is active at the first clock of the spoil
slot drives that slot and counts CHECK, both in one step, and goes on driving if it becomes LEAVING there; one that is passive
there does neither, whatever it was in the last CHECK slot. The withdrawal that the count asks for is taken by the clock that
ends the spoil slot (R163), before any other event of the clock at which it ends, a boundary that comes due there among them,
which is the model's choice (assumption 42). At the end of the slot a passive receiver discards the frame, which returns an
ALIGNING station to LISTEN with ALIGN_FAILED when the spoil slot is recessive. A spoiled frame has no consequence. That
FRAME_FAILED is the first clock of the spoil slot is DEDUCED, and a frame that was not read slot by slot ends with its
command, and so does its withdrawal (assumptions 4 and 17). -/
def Obligations.FailedFramesAreSpoiledOrDiscarded : Prop :=
  ∀ s : State, s.bus.sending = none →
    let base := frameEnds s
    let unsettled := ∀ r, s.bus.reading = some r → r.settled = false
    let failed := s.bus.spoiling = false ∧ unsettled ∧ ∀ r, s.bus.reading = some r → checkRead r.slots = true →
      ownTest r.slots = false
    let passive := s.membership.state = .listen ∨ s.membership.state = .aligning ∨ s.membership.state = .leaving
    let spoilSlot := s.bus.reading.bind fun r => spoilRead r.slots
    let edge := s.membership.state ≠ .idle ∧ s.profile.slotDivider ≤ s.bus.slotTimer + 1 ∧ (pinsNow s).rstn = .high
    (activeState s.membership.state = true → failed → (∀ r, s.bus.reading = some r → checkRead r.slots = false) →
      let counted := countTally .check base
      exec .frameFailed s = .next (if counted.2 = true then withdraw .tally counted.1 else counted.1)) ∧
    (∀ r, activeState s.membership.state = true → failed → s.bus.reading = some r → checkRead r.slots = true →
      let begins := spoilPlace r.slots = some r.slots.length ∧ s.bus.slotTimer = 0
      (begins →
        let counted := countTally .check { s with bus := { s.bus with spoiling := true, drive := true } }
        exec .frameFailed s = .next { counted.1 with bus :=
          { counted.1.bus with withdrawAsked := s.bus.withdrawAsked || counted.2 } }) ∧
      (¬ begins → exec .frameFailed s = .next s)) ∧
    (∀ t, takesRequest .stop s = true → exec .stop s = .next t → t.membership.state = .leaving →
      t.bus.spoiling = s.bus.spoiling ∧ pullsData t = pullsData s) ∧
    (edge → s.bus.withdrawAsked = true → spoilSlot ≠ none →
      exec .carrierSample s = .next (withdraw .tally (tick s)) ∧ (tick s).bus.withdrawAsked = false) ∧
    (edge → s.bus.withdrawAsked = true → spoilSlot = none →
      exec .carrierSample s = .next (tick s) ∧ (tick s).bus.withdrawAsked = true) ∧
    (edge → s.bus.spoiling = false → ∃ t, exec .carrierSample s = .next t ∧ pullsData t = false) ∧
    (passive → failed → (∀ r, s.bus.reading = some r → checkRead r.slots = false) →
      exec .frameFailed s = .next base) ∧
    (∀ r, passive → failed → s.bus.reading = some r → checkRead r.slots = true → exec .frameFailed s = .next s) ∧
    (passive → failed → spoilSlot ≠ some false → exec .receiveError s = .next (
      if s.membership.state = .aligning then alignFailed .receiveError base else base)) ∧
    (activeState s.membership.state = true → exec .receiveError s = .next s) ∧
    (s.membership.state ≠ .idle → unsettled → spoilSlot ≠ some true → exec .spoiledFrame s = .next base) ∧
    (s.membership.state = .idle ∨ (∃ r, s.bus.reading = some r ∧ r.settled = true) →
      exec .frameFailed s = .next s ∧ exec .receiveError s = .next s ∧ exec .spoiledFrame s = .next s)

/-- ATTEMPT_START (R140, R144, R156): on an idle bus the frame of the lowest kind code, and among those the oldest, is in
transmission; an EPOCH takes the farthest horizon as the Schedule stands (R103), and the attempt count follows the frame. A
bus that is not idle, a frame in transmission, or a clock that is neither a slot edge nor the fall of CD that begins a frame
starts nothing. From when on the bus counts as idle is DEDUCED (assumption 37). -/
def Obligations.AttemptStartTakesTheMostUrgentFrame : Prop :=
  ∀ s : State, QueueInLimits s →
    (s.membership.state = .idle ∨ s.bus.sending ≠ none ∨ s.bus.idleCount ≠ 6 ∨
        (s.bus.reading = none ∧ s.bus.slotTimer ≠ 0) ∨
        (∃ r, s.bus.reading = some r ∧ (r.slots ≠ [] ∨ r.start ≠ s.clock)) → exec .attemptStart s = .next s) ∧
    (s.membership.state ≠ .idle → s.bus.sending = none → s.bus.idleCount = 6 →
      (s.bus.reading = none → s.bus.slotTimer = 0) →
      (∀ r, s.bus.reading = some r → r.slots = [] ∧ r.start = s.clock) →
      (s.queue.entries = [] → exec .attemptStart s = .next s) ∧
      ∀ e ∈ s.queue.entries,
        (∀ x ∈ s.queue.entries, kindCode (payloadKind e.payload) < kindCode (payloadKind x.payload) ∨
          (payloadKind e.payload = payloadKind x.payload ∧ e.age ≤ x.age)) →
        ∃ payload, exec .attemptStart s = .next { s with bus :=
            ⟨0, false, 6, some (s.bus.reading.getD ⟨s.clock, s.timer.grid.map fun g => g.counter, [], false⟩),
             some ⟨e.ident, payload, false, false, false⟩, false, s.bus.withdrawAsked, true,
             if s.bus.attemptsFor = some e.ident then s.bus.attempts else 0, some e.ident⟩ } ∧
          ((∀ mark horizon digest, e.payload ≠ .epoch mark horizon digest) → payload = e.payload) ∧
          ∀ mark horizon digest g, e.payload = .epoch mark horizon digest → s.timer.grid = some g →
            let ahead := ((liveOrders s).map (fun o => o.target) ++ s.membership.blindHorizon.toList).filter
              (aheadOf g.counter)
            ∃ h, payload = .epoch mark h digest ∧ (ahead = [] → h = mark) ∧
              (ahead ≠ [] → h ∈ ahead ∧ ∀ x ∈ ahead, epochDistance g.counter x ≤ epochDistance g.counter h))

/-- Attempts that do not succeed (R141 to R144, R154, R157). A lost arbitration leaves the frame waiting and the attempt count
as it is; a spoiled attempt counts SPOIL and leaves the frame waiting with one more attempt; the eighth counts DROP, posts
FRAME_DROPPED and removes the frame; a displaced frame is lost. A PROPOSE or COMMIT that is spoiled across its vote close
aborts its order, with UNSENT or COMMIT_LOST (R12, R25); one that loses arbitration across it does so with UNSENT or TIMEOUT,
which is DEDUCED (assumption 10). A frame that a purge or the vote close named while it was in transmission is removed when
its attempt ends (R158, R159). After ATTEMPT_SPOILED the own frame, of which the END slots are still read, is received by no
block (R147). What the sender read back must not contradict the command (assumption 4). That a mismatch after START counts
nothing until the attempt ends, and that its two forms are told apart by an operand, is the model's choice (assumption 16). -/
def Obligations.UnsuccessfulAttemptsAreCounted : Prop :=
  ∀ (a : Sending) (s : State), s.bus.sending = some a →
    let ended := fun u : State => { u with bus := { u.bus with sending := none, drive := false, spoiling := false } }
    let withdrawn := fun (asked : Bool) (u : State) => if asked = true then withdraw .tally u else u
    let lost := fun u : State =>
      loseFrame a.payload (post (.frameDropped .displaced (payloadKind a.payload)
        (frameOrderId (ownNumber s) a.payload)) u)
    let removed := fun u : State => { u with queue :=
      { u.queue with entries := u.queue.entries.filter fun e => e.ident != a.ident } }
    let forgotten := fun u : State => { u with bus := { u.bus with attempts := 0, attemptsFor := none } }
    let kept := fun u : State =>
      if a.removeAfter = true then (if u.bus.attemptsFor = some a.ident then forgotten (removed u) else removed u) else u
    let across := fun b : Ballot => ballotWithSeq s b.seq = some b ∧ voteClosed s b = true ∧
      ((b.state = .awaitingSend ∧ ∃ mask tone mode, a.payload = .propose b.seq b.target mask tone mode) ∨
        (b.state = .committing ∧ a.payload = .commit b.seq b.target))
    let aborted := fun (ofCommit : AbortReason) (b : Ballot) (u : State) =>
      abortOwn b (if b.state = .committing then ofCommit else .unsent) (ownNumber s) u
    let spoiledFrom := fun (base : State) (answer : Host.Outcome State Fault Refusal) =>
      let spoil := countTally .spoil (ended base)
      let more := { spoil.1 with bus := { spoil.1.bus with attempts := s.bus.attempts + 1 } }
      (a.displaced = true → answer = .next (withdrawn spoil.2 (lost (forgotten spoil.1)))) ∧
      (a.displaced = false → s.bus.attempts < 7 → (∀ b, ¬ across b) → answer = .next (withdrawn spoil.2 (kept more))) ∧
      (a.displaced = false → s.bus.attempts < 7 → ∀ b, across b →
        answer = .next (withdrawn spoil.2 (kept (aborted .commitLost b more)))) ∧
      (a.displaced = false → 7 ≤ s.bus.attempts →
        let drop := countTally .drop spoil.1
        answer = .next (withdrawn (spoil.2 || drop.2) (loseFrame a.payload (forgotten (removed
          (post (.frameDropped .spoiled (payloadKind a.payload) (frameOrderId (ownNumber s) a.payload)) drop.1))))))
    (a.mismatch = false → heardBack s a = none ∨ heardBack s a = some .lost →
      (a.displaced = true → exec .arbitrationLost s = .next (lost (ended s))) ∧
      (a.displaced = false → (∀ b, ¬ across b) → exec .arbitrationLost s = .next (kept (ended s))) ∧
      (a.displaced = false → ∀ b, across b →
        exec .arbitrationLost s = .next (kept (aborted .timeout b (ended s))))) ∧
    (a.mismatch = false → heardBack s a = none ∨ heardBack s a = some .mismatch →
      exec (.bitMonitorMismatch false) s = .next { s with bus :=
        { s.bus with sending := some { a with mismatch := true }, drive := false, spoiling := true } }) ∧
    (a.mismatch = true ∨ spoilRead (slotsRead s) ≠ some true → spoiledFrom (frameEnds s) (exec .attemptSpoiled s)) ∧
    (a.mismatch = true → spoiledFrom (frameEnds s) (exec .frameTransmitted s)) ∧
    (∀ (c : Instr) (n : StationNo) (p : Payload) (r : Reading), c.acceptedFrame = some (n, p) → s.bus.reading = some r →
      checkRead r.slots = true → a.mismatch = true ∨ spoilRead r.slots ≠ some true →
      ∃ t, exec .attemptSpoiled s = .next t ∧ exec c t = .next t ∧ exec .frameFailed t = .next t ∧
        exec .receiveError t = .next t) ∧
    (s.bus.reading = none → spoiledFrom s (exec (.bitMonitorMismatch true) s)) ∧
    (∀ r, s.bus.reading = some r → r.slots = [] → spoiledFrom
      { s with bus := { s.bus with reading := none, idleCount := min (s.bus.idleCount + 1) 6 } }
      (exec (.bitMonitorMismatch true) s))

/-- FRAME_TRANSMITTED (R143, R157): the frame leaves the queue, the quiet count of a MEMBER is 0, and by its kind a COMMIT
makes the order READY (R11, R25), a PROPOSE takes the electorate into its ballot, which stays open and is complete at once
without electors (R8), or after its vote close aborts the order with TIMEOUT (R12), a LEAVE ends LEAVING (R117), and other
kinds have no further effect. The report on a PROPOSE or COMMIT whose ballot is gone is ignored (R13, R25, R155). The frame
itself, of which the END slots are still read, is received by no block and makes no CHECK, no receive error and no report of a
duplicate number at its sender (R147, R148). -/
def Obligations.TransmittedFramesActAtTheProducer : Prop :=
  ∀ (a : Sending) (s : State), s.bus.sending = some a → a.mismatch = false →
    heardBack s a = none ∨ heardBack s a = some .agrees → spoilRead (slotsRead s) ≠ some false →
    let gone := { frameEnds s with
      bus := { (frameEnds s).bus with
        sending := none, drive := false, spoiling := false, attempts := 0, attemptsFor := none }
      queue := { s.queue with entries := s.queue.entries.filter fun e => e.ident != a.ident }
      membership := { s.membership with quiet := if s.membership.state = .member then 0 else s.membership.quiet } }
    let sent := exec .frameTransmitted s
    (payloadKind a.payload ∉ [FrameKind.propose, .commit, .leave] → sent = .next gone) ∧
    (∀ (c : Instr) (n : StationNo) (p : Payload) (r : Reading), c.acceptedFrame = some (n, p) → s.bus.reading = some r →
      checkRead r.slots = true → ∃ t, sent = .next t ∧ exec c t = .next t ∧ exec .frameFailed t = .next t ∧
        exec .receiveError t = .next t) ∧
    (∀ seq target b, a.payload = .commit seq target → ballotWithSeq s seq = some b → b.state = .committing →
      b.target = target →
      (vetoPointPassed s target = false → ∃ t, sent = .next t ∧
        liveOrders t = (liveOrders s).map (fun o => if o.id = ownId s seq then { o with state := .ready } else o) ∧
        openBallots t = (openBallots s).filter (fun x => x.seq != seq) ∧
        t.monitor = (post (.orderCommitted (ownId s seq) target) s).monitor ∧
        t.bus = gone.bus ∧ t.queue = gone.queue ∧ t.membership = gone.membership) ∧
      (vetoPointPassed s target = true → ∃ t, sent = .next t ∧ liveOrders t = liveOrders s ∧
        openBallots t = (openBallots s).filter (fun x => x.seq != seq) ∧ t.monitor = s.monitor ∧
        t.bus = gone.bus ∧ t.queue = gone.queue ∧ t.membership = gone.membership)) ∧
    (∀ seq target mask tone mode b, a.payload = .propose seq target mask tone mode → ballotWithSeq s seq = some b →
      b.state = .awaitingSend → b.target = target → voteClosed s b = false →
      (∃ n, (rosterEntry s n).presence = .member) → ∃ t, sent = .next t ∧ liveOrders t = liveOrders s ∧
        (∃ electorate : StationSet,
          (∀ n, inSet electorate n = decide ((rosterEntry s n).presence = .member)) ∧
          openBallots t = (openBallots s).map fun x => if x.seq = seq then
            { x with state := .collecting, accepted := 0, electorate := electorate } else x) ∧
        (∃ x ∈ openBallots t, x.seq = seq) ∧
        t.bus = gone.bus ∧ t.queue = gone.queue ∧ t.membership = gone.membership ∧ t.monitor = s.monitor) ∧
    (∀ seq target mask tone mode b, a.payload = .propose seq target mask tone mode → ballotWithSeq s seq = some b →
      b.state = .awaitingSend → b.target = target → voteClosed s b = false →
      (∀ n, (rosterEntry s n).presence ≠ .member) → gone.queue.entries.length < 8 → ∃ t, sent = .next t ∧
        liveOrders t = liveOrders s ∧
        (openBallots t = (openBallots s).map fun x => if x.seq = seq then
          { x with state := .committing, accepted := 0, electorate := 0 } else x) ∧
        (∃ x ∈ openBallots t, x.seq = seq) ∧
        t.queue.entries = gone.queue.entries ++
          [⟨s.queue.nextIdent, s.queue.nextIdent, .commit seq b.target⟩] ∧
        t.bus = gone.bus ∧ t.membership = gone.membership ∧ t.monitor = s.monitor) ∧
    (∀ seq target mask tone mode b, a.payload = .propose seq target mask tone mode → ballotWithSeq s seq = some b →
      b.state = .awaitingSend → b.target = target → voteClosed s b = true →
      sent = .next (abortOwn b .timeout (ownNumber s) gone)) ∧
    (∀ seq target mask tone mode, a.payload = .propose seq target mask tone mode →
      (∀ b, ballotWithSeq s seq = some b → b.state ≠ .awaitingSend ∨ b.target ≠ target) → sent = .next gone) ∧
    (∀ seq target, a.payload = .commit seq target →
      (∀ b, ballotWithSeq s seq = some b → b.state ≠ .committing ∨ b.target ≠ target) → sent = .next gone) ∧
    (∀ reason l, a.payload = .leave reason → s.membership.leaving = some l → ∃ t, sent = .next t ∧
      t.membership.state = (if l.destination = .idle then .idle else .listen) ∧ t.queue.entries = [] ∧
      t.membership.leaving = none ∧ t.membership.withdrawals = s.membership.withdrawals ∧
      t.monitor.tallies = (if l.destination = .idle then s.monitor.tallies else ⟨0, 0, 0, 0, 0, 0⟩) ∧
      t.carrier = s.carrier)

/-- The slots of CD (R135 to R137, R140): a fall outside a frame begins one; CD is read once per slot, at its reading clock;
outside a frame a recessive slot raises the idle count to at most 6 and a dominant one sets it to 0; a recessive START was a
glitch; a frame is read slot by slot and ends with its fourth END slot, 34 + 8n slots from START by the LENGTH read; and at a
slot edge a sender drives the next slot of its frame, or after a mismatch its spoil slot alone (R142), and a station without a
frame drives nothing there that it does not drive already. A reading at another clock does not come (assumption 29), after a
glitch the slots go on from its fall (assumption 36), and a second fall before the START slot is read does nothing (assumption
43). -/
def Obligations.SlotsFrameTheBus : Prop :=
  ∀ (cd : Level) (s : State), s.membership.state ≠ .idle →
    let counted := if cd = .high then min (s.bus.idleCount + 1) 6 else 0
    let now := s.bus.slotTimer = s.profile.slotDivider / 2 ∧ s.bus.slotRead = false
    let edge := s.profile.slotDivider ≤ s.bus.slotTimer + 1 ∧ (pinsNow s).rstn = .high ∧ s.bus.withdrawAsked = false
    (¬ now → exec (.slotReading cd) s = .next s) ∧
    (s.bus.reading = none →
      exec .cdFall s = .next { s with bus := { s.bus with
        slotTimer := 0, slotRead := false, reading := some ⟨s.clock, s.timer.grid.map fun g => g.counter, [], false⟩ } } ∧
      (now → exec (.slotReading cd) s = .next { s with bus :=
        { s.bus with slotRead := true, idleCount := counted } }) ∧
      (edge → ∃ t, exec .carrierSample s = .next t ∧ t.bus = { s.bus with
        slotTimer := 0, slotRead := false, drive := false })) ∧
    ∀ r, s.bus.reading = some r →
      let done := 13 ≤ r.slots.length ∧ 34 + 8 * natOf ((r.slots.drop 9).take 4) ≤ r.slots.length
      exec .cdFall s = .next s ∧
      (now → r.slots = [] → cd = .high → exec (.slotReading cd) s = .next { s with bus :=
        { s.bus with slotRead := true, reading := none, idleCount := counted } }) ∧
      (now → (r.slots ≠ [] ∨ cd = .low) →
        exec (.slotReading cd) s = .next { s with bus :=
          { s.bus with slotRead := true, reading := some { r with slots := r.slots ++ [decide (cd = .high)] } } }) ∧
      (edge → ∃ t, exec .carrierSample s = .next t ∧ t.bus.slotTimer = 0 ∧ t.bus.slotRead = false ∧
        (done → t.bus.reading = none ∧ t.bus.idleCount = 0 ∧ t.bus.spoiling = false) ∧
        (¬ done → t.bus.reading = some r ∧ t.bus.idleCount = s.bus.idleCount ∧ t.bus.spoiling = s.bus.spoiling) ∧
        (∀ a, s.bus.sending = some a → a.mismatch = false → s.bus.spoiling = false →
          pullsData t = decide ((frameSlots (ownNumber s) a.payload)[r.slots.length]? = some false)) ∧
        ((∀ a, s.bus.sending = some a → a.mismatch = true) →
          pullsData t = (s.bus.spoiling && decide (13 ≤ r.slots.length ∧
            r.slots.length = 29 + 8 * natOf ((r.slots.drop 9).take 4)))))
end

