-- ==== Sys2Proof/Laws/State.lean ====
section
/-! SUPPORT. What the shared updates of the state leave as it is: one lemma for each field an update does not touch. -/

namespace Sys2Proof.Machine

@[simp] theorem post_profile (r : Report) (s : State) : (post r s).profile = s.profile := rfl
@[simp] theorem post_response (r : Report) (s : State) : (post r s).response = s.response := rfl
@[simp] theorem post_localPort (r : Report) (s : State) : (post r s).localPort = s.localPort := rfl
@[simp] theorem post_orders (r : Report) (s : State) : (post r s).orders = s.orders := rfl
@[simp] theorem post_timer (r : Report) (s : State) : (post r s).timer = s.timer := rfl
@[simp] theorem post_membership (r : Report) (s : State) : (post r s).membership = s.membership := rfl
@[simp] theorem post_queue (r : Report) (s : State) : (post r s).queue = s.queue := rfl
@[simp] theorem post_bus (r : Report) (s : State) : (post r s).bus = s.bus := rfl
@[simp] theorem post_carrier (r : Report) (s : State) : (post r s).carrier = s.carrier := rfl
@[simp] theorem post_resetPin (r : Report) (s : State) : (post r s).resetPin = s.resetPin := rfl
@[simp] theorem post_inputs (r : Report) (s : State) : (post r s).inputs = s.inputs := rfl
@[simp] theorem post_clock (r : Report) (s : State) : (post r s).clock = s.clock := rfl
@[simp] theorem post_pending (r : Report) (s : State) : (post r s).pending = s.pending := rfl

@[simp] theorem respond_profile (code : Byte) (status : Status) (fields : List Byte) (s : State) : (respond code status fields s).profile = s.profile := rfl
@[simp] theorem respond_localPort (code : Byte) (status : Status) (fields : List Byte) (s : State) : (respond code status fields s).localPort = s.localPort := rfl
@[simp] theorem respond_orders (code : Byte) (status : Status) (fields : List Byte) (s : State) : (respond code status fields s).orders = s.orders := rfl
@[simp] theorem respond_timer (code : Byte) (status : Status) (fields : List Byte) (s : State) : (respond code status fields s).timer = s.timer := rfl
@[simp] theorem respond_membership (code : Byte) (status : Status) (fields : List Byte) (s : State) : (respond code status fields s).membership = s.membership := rfl
@[simp] theorem respond_queue (code : Byte) (status : Status) (fields : List Byte) (s : State) : (respond code status fields s).queue = s.queue := rfl
@[simp] theorem respond_bus (code : Byte) (status : Status) (fields : List Byte) (s : State) : (respond code status fields s).bus = s.bus := rfl
@[simp] theorem respond_carrier (code : Byte) (status : Status) (fields : List Byte) (s : State) : (respond code status fields s).carrier = s.carrier := rfl
@[simp] theorem respond_monitor (code : Byte) (status : Status) (fields : List Byte) (s : State) : (respond code status fields s).monitor = s.monitor := rfl
@[simp] theorem respond_resetPin (code : Byte) (status : Status) (fields : List Byte) (s : State) : (respond code status fields s).resetPin = s.resetPin := rfl
@[simp] theorem respond_inputs (code : Byte) (status : Status) (fields : List Byte) (s : State) : (respond code status fields s).inputs = s.inputs := rfl
@[simp] theorem respond_clock (code : Byte) (status : Status) (fields : List Byte) (s : State) : (respond code status fields s).clock = s.clock := rfl
@[simp] theorem respond_pending (code : Byte) (status : Status) (fields : List Byte) (s : State) : (respond code status fields s).pending = s.pending := rfl

@[simp] theorem refuseRequest_profile (code : Byte) (reason : RefusalReason) (s : State) : (refuseRequest code reason s).profile = s.profile := rfl
@[simp] theorem refuseRequest_localPort (code : Byte) (reason : RefusalReason) (s : State) : (refuseRequest code reason s).localPort = s.localPort := rfl
@[simp] theorem refuseRequest_orders (code : Byte) (reason : RefusalReason) (s : State) : (refuseRequest code reason s).orders = s.orders := rfl
@[simp] theorem refuseRequest_timer (code : Byte) (reason : RefusalReason) (s : State) : (refuseRequest code reason s).timer = s.timer := rfl
@[simp] theorem refuseRequest_membership (code : Byte) (reason : RefusalReason) (s : State) : (refuseRequest code reason s).membership = s.membership := rfl
@[simp] theorem refuseRequest_queue (code : Byte) (reason : RefusalReason) (s : State) : (refuseRequest code reason s).queue = s.queue := rfl
@[simp] theorem refuseRequest_bus (code : Byte) (reason : RefusalReason) (s : State) : (refuseRequest code reason s).bus = s.bus := rfl
@[simp] theorem refuseRequest_carrier (code : Byte) (reason : RefusalReason) (s : State) : (refuseRequest code reason s).carrier = s.carrier := rfl
@[simp] theorem refuseRequest_monitor (code : Byte) (reason : RefusalReason) (s : State) : (refuseRequest code reason s).monitor = s.monitor := rfl
@[simp] theorem refuseRequest_resetPin (code : Byte) (reason : RefusalReason) (s : State) : (refuseRequest code reason s).resetPin = s.resetPin := rfl
@[simp] theorem refuseRequest_inputs (code : Byte) (reason : RefusalReason) (s : State) : (refuseRequest code reason s).inputs = s.inputs := rfl
@[simp] theorem refuseRequest_clock (code : Byte) (reason : RefusalReason) (s : State) : (refuseRequest code reason s).clock = s.clock := rfl
@[simp] theorem refuseRequest_pending (code : Byte) (reason : RefusalReason) (s : State) : (refuseRequest code reason s).pending = s.pending := rfl

@[simp] theorem carrierReset_profile (s : State) : (carrierReset s).profile = s.profile := rfl
@[simp] theorem carrierReset_response (s : State) : (carrierReset s).response = s.response := rfl
@[simp] theorem carrierReset_localPort (s : State) : (carrierReset s).localPort = s.localPort := rfl
@[simp] theorem carrierReset_orders (s : State) : (carrierReset s).orders = s.orders := rfl
@[simp] theorem carrierReset_timer (s : State) : (carrierReset s).timer = s.timer := rfl
@[simp] theorem carrierReset_membership (s : State) : (carrierReset s).membership = s.membership := rfl
@[simp] theorem carrierReset_queue (s : State) : (carrierReset s).queue = s.queue := rfl
@[simp] theorem carrierReset_bus (s : State) : (carrierReset s).bus = s.bus := rfl
@[simp] theorem carrierReset_monitor (s : State) : (carrierReset s).monitor = s.monitor := rfl
@[simp] theorem carrierReset_resetPin (s : State) : (carrierReset s).resetPin = s.resetPin := rfl
@[simp] theorem carrierReset_inputs (s : State) : (carrierReset s).inputs = s.inputs := rfl
@[simp] theorem carrierReset_clock (s : State) : (carrierReset s).clock = s.clock := rfl
@[simp] theorem carrierReset_pending (s : State) : (carrierReset s).pending = s.pending := rfl

@[simp] theorem purgeWhere_profile (p : QueueEntry → Bool) (s : State) : (purgeWhere p s).profile = s.profile := rfl
@[simp] theorem purgeWhere_response (p : QueueEntry → Bool) (s : State) : (purgeWhere p s).response = s.response := rfl
@[simp] theorem purgeWhere_localPort (p : QueueEntry → Bool) (s : State) : (purgeWhere p s).localPort = s.localPort := rfl
@[simp] theorem purgeWhere_orders (p : QueueEntry → Bool) (s : State) : (purgeWhere p s).orders = s.orders := rfl
@[simp] theorem purgeWhere_timer (p : QueueEntry → Bool) (s : State) : (purgeWhere p s).timer = s.timer := rfl
@[simp] theorem purgeWhere_membership (p : QueueEntry → Bool) (s : State) : (purgeWhere p s).membership = s.membership := rfl
@[simp] theorem purgeWhere_carrier (p : QueueEntry → Bool) (s : State) : (purgeWhere p s).carrier = s.carrier := rfl
@[simp] theorem purgeWhere_monitor (p : QueueEntry → Bool) (s : State) : (purgeWhere p s).monitor = s.monitor := rfl
@[simp] theorem purgeWhere_resetPin (p : QueueEntry → Bool) (s : State) : (purgeWhere p s).resetPin = s.resetPin := rfl
@[simp] theorem purgeWhere_inputs (p : QueueEntry → Bool) (s : State) : (purgeWhere p s).inputs = s.inputs := rfl
@[simp] theorem purgeWhere_clock (p : QueueEntry → Bool) (s : State) : (purgeWhere p s).clock = s.clock := rfl
@[simp] theorem purgeWhere_pending (p : QueueEntry → Bool) (s : State) : (purgeWhere p s).pending = s.pending := rfl

@[simp] theorem purgeOrder_profile (id : OrderId) (s : State) : (purgeOrder id s).profile = s.profile := rfl
@[simp] theorem purgeOrder_response (id : OrderId) (s : State) : (purgeOrder id s).response = s.response := rfl
@[simp] theorem purgeOrder_localPort (id : OrderId) (s : State) : (purgeOrder id s).localPort = s.localPort := rfl
@[simp] theorem purgeOrder_orders (id : OrderId) (s : State) : (purgeOrder id s).orders = s.orders := rfl
@[simp] theorem purgeOrder_timer (id : OrderId) (s : State) : (purgeOrder id s).timer = s.timer := rfl
@[simp] theorem purgeOrder_membership (id : OrderId) (s : State) : (purgeOrder id s).membership = s.membership := rfl
@[simp] theorem purgeOrder_carrier (id : OrderId) (s : State) : (purgeOrder id s).carrier = s.carrier := rfl
@[simp] theorem purgeOrder_monitor (id : OrderId) (s : State) : (purgeOrder id s).monitor = s.monitor := rfl
@[simp] theorem purgeOrder_resetPin (id : OrderId) (s : State) : (purgeOrder id s).resetPin = s.resetPin := rfl
@[simp] theorem purgeOrder_inputs (id : OrderId) (s : State) : (purgeOrder id s).inputs = s.inputs := rfl
@[simp] theorem purgeOrder_clock (id : OrderId) (s : State) : (purgeOrder id s).clock = s.clock := rfl
@[simp] theorem purgeOrder_pending (id : OrderId) (s : State) : (purgeOrder id s).pending = s.pending := rfl

@[simp] theorem removeFrame_profile (ident : Nat) (s : State) : (removeFrame ident s).profile = s.profile := rfl
@[simp] theorem removeFrame_response (ident : Nat) (s : State) : (removeFrame ident s).response = s.response := rfl
@[simp] theorem removeFrame_localPort (ident : Nat) (s : State) : (removeFrame ident s).localPort = s.localPort := rfl
@[simp] theorem removeFrame_orders (ident : Nat) (s : State) : (removeFrame ident s).orders = s.orders := rfl
@[simp] theorem removeFrame_timer (ident : Nat) (s : State) : (removeFrame ident s).timer = s.timer := rfl
@[simp] theorem removeFrame_membership (ident : Nat) (s : State) : (removeFrame ident s).membership = s.membership := rfl
@[simp] theorem removeFrame_carrier (ident : Nat) (s : State) : (removeFrame ident s).carrier = s.carrier := rfl
@[simp] theorem removeFrame_monitor (ident : Nat) (s : State) : (removeFrame ident s).monitor = s.monitor := rfl
@[simp] theorem removeFrame_resetPin (ident : Nat) (s : State) : (removeFrame ident s).resetPin = s.resetPin := rfl
@[simp] theorem removeFrame_inputs (ident : Nat) (s : State) : (removeFrame ident s).inputs = s.inputs := rfl
@[simp] theorem removeFrame_clock (ident : Nat) (s : State) : (removeFrame ident s).clock = s.clock := rfl
@[simp] theorem removeFrame_pending (ident : Nat) (s : State) : (removeFrame ident s).pending = s.pending := rfl

@[simp] theorem enterListen_profile (keep : Bool) (s : State) : (enterListen keep s).profile = s.profile := rfl
@[simp] theorem enterListen_response (keep : Bool) (s : State) : (enterListen keep s).response = s.response := rfl
@[simp] theorem enterListen_localPort (keep : Bool) (s : State) : (enterListen keep s).localPort = s.localPort := rfl
@[simp] theorem enterListen_orders (keep : Bool) (s : State) : (enterListen keep s).orders = s.orders := rfl
@[simp] theorem enterListen_queue (keep : Bool) (s : State) : (enterListen keep s).queue = s.queue := rfl
@[simp] theorem enterListen_bus (keep : Bool) (s : State) : (enterListen keep s).bus = s.bus := rfl
@[simp] theorem enterListen_carrier (keep : Bool) (s : State) : (enterListen keep s).carrier = s.carrier := rfl
@[simp] theorem enterListen_resetPin (keep : Bool) (s : State) : (enterListen keep s).resetPin = s.resetPin := rfl
@[simp] theorem enterListen_inputs (keep : Bool) (s : State) : (enterListen keep s).inputs = s.inputs := rfl
@[simp] theorem enterListen_clock (keep : Bool) (s : State) : (enterListen keep s).clock = s.clock := rfl
@[simp] theorem enterListen_pending (keep : Bool) (s : State) : (enterListen keep s).pending = s.pending := rfl

@[simp] theorem enterIdle_profile (s : State) : (enterIdle s).profile = s.profile := rfl
@[simp] theorem enterIdle_response (s : State) : (enterIdle s).response = s.response := rfl
@[simp] theorem enterIdle_localPort (s : State) : (enterIdle s).localPort = s.localPort := rfl
@[simp] theorem enterIdle_carrier (s : State) : (enterIdle s).carrier = s.carrier := rfl
@[simp] theorem enterIdle_monitor (s : State) : (enterIdle s).monitor = s.monitor := rfl
@[simp] theorem enterIdle_resetPin (s : State) : (enterIdle s).resetPin = s.resetPin := rfl
@[simp] theorem enterIdle_inputs (s : State) : (enterIdle s).inputs = s.inputs := rfl
@[simp] theorem enterIdle_clock (s : State) : (enterIdle s).clock = s.clock := rfl
@[simp] theorem enterIdle_pending (s : State) : (enterIdle s).pending = s.pending := rfl

@[simp] theorem postDropped_profile (how : FrameLoss) (p : Payload) (s : State) : (postDropped how p s).profile = s.profile := rfl
@[simp] theorem postDropped_response (how : FrameLoss) (p : Payload) (s : State) : (postDropped how p s).response = s.response := rfl
@[simp] theorem postDropped_localPort (how : FrameLoss) (p : Payload) (s : State) : (postDropped how p s).localPort = s.localPort := rfl
@[simp] theorem postDropped_orders (how : FrameLoss) (p : Payload) (s : State) : (postDropped how p s).orders = s.orders := rfl
@[simp] theorem postDropped_timer (how : FrameLoss) (p : Payload) (s : State) : (postDropped how p s).timer = s.timer := rfl
@[simp] theorem postDropped_membership (how : FrameLoss) (p : Payload) (s : State) : (postDropped how p s).membership = s.membership := rfl
@[simp] theorem postDropped_queue (how : FrameLoss) (p : Payload) (s : State) : (postDropped how p s).queue = s.queue := rfl
@[simp] theorem postDropped_bus (how : FrameLoss) (p : Payload) (s : State) : (postDropped how p s).bus = s.bus := rfl
@[simp] theorem postDropped_carrier (how : FrameLoss) (p : Payload) (s : State) : (postDropped how p s).carrier = s.carrier := rfl
@[simp] theorem postDropped_resetPin (how : FrameLoss) (p : Payload) (s : State) : (postDropped how p s).resetPin = s.resetPin := rfl
@[simp] theorem postDropped_inputs (how : FrameLoss) (p : Payload) (s : State) : (postDropped how p s).inputs = s.inputs := rfl
@[simp] theorem postDropped_clock (how : FrameLoss) (p : Payload) (s : State) : (postDropped how p s).clock = s.clock := rfl
@[simp] theorem postDropped_pending (how : FrameLoss) (p : Payload) (s : State) : (postDropped how p s).pending = s.pending := rfl

@[simp] theorem appendFrame_profile (p : Payload) (s : State) : (appendFrame p s).profile = s.profile := rfl
@[simp] theorem appendFrame_response (p : Payload) (s : State) : (appendFrame p s).response = s.response := rfl
@[simp] theorem appendFrame_localPort (p : Payload) (s : State) : (appendFrame p s).localPort = s.localPort := rfl
@[simp] theorem appendFrame_orders (p : Payload) (s : State) : (appendFrame p s).orders = s.orders := rfl
@[simp] theorem appendFrame_timer (p : Payload) (s : State) : (appendFrame p s).timer = s.timer := rfl
@[simp] theorem appendFrame_membership (p : Payload) (s : State) : (appendFrame p s).membership = s.membership := rfl
@[simp] theorem appendFrame_bus (p : Payload) (s : State) : (appendFrame p s).bus = s.bus := rfl
@[simp] theorem appendFrame_carrier (p : Payload) (s : State) : (appendFrame p s).carrier = s.carrier := rfl
@[simp] theorem appendFrame_monitor (p : Payload) (s : State) : (appendFrame p s).monitor = s.monitor := rfl
@[simp] theorem appendFrame_resetPin (p : Payload) (s : State) : (appendFrame p s).resetPin = s.resetPin := rfl
@[simp] theorem appendFrame_inputs (p : Payload) (s : State) : (appendFrame p s).inputs = s.inputs := rfl
@[simp] theorem appendFrame_clock (p : Payload) (s : State) : (appendFrame p s).clock = s.clock := rfl
@[simp] theorem appendFrame_pending (p : Payload) (s : State) : (appendFrame p s).pending = s.pending := rfl

@[simp] theorem replaceFrame_profile (old : QueueEntry) (p : Payload) (s : State) : (replaceFrame old p s).profile = s.profile := rfl
@[simp] theorem replaceFrame_response (old : QueueEntry) (p : Payload) (s : State) : (replaceFrame old p s).response = s.response := rfl
@[simp] theorem replaceFrame_localPort (old : QueueEntry) (p : Payload) (s : State) : (replaceFrame old p s).localPort = s.localPort := rfl
@[simp] theorem replaceFrame_orders (old : QueueEntry) (p : Payload) (s : State) : (replaceFrame old p s).orders = s.orders := rfl
@[simp] theorem replaceFrame_timer (old : QueueEntry) (p : Payload) (s : State) : (replaceFrame old p s).timer = s.timer := rfl
@[simp] theorem replaceFrame_membership (old : QueueEntry) (p : Payload) (s : State) : (replaceFrame old p s).membership = s.membership := rfl
@[simp] theorem replaceFrame_carrier (old : QueueEntry) (p : Payload) (s : State) : (replaceFrame old p s).carrier = s.carrier := rfl
@[simp] theorem replaceFrame_monitor (old : QueueEntry) (p : Payload) (s : State) : (replaceFrame old p s).monitor = s.monitor := rfl
@[simp] theorem replaceFrame_resetPin (old : QueueEntry) (p : Payload) (s : State) : (replaceFrame old p s).resetPin = s.resetPin := rfl
@[simp] theorem replaceFrame_inputs (old : QueueEntry) (p : Payload) (s : State) : (replaceFrame old p s).inputs = s.inputs := rfl
@[simp] theorem replaceFrame_clock (old : QueueEntry) (p : Payload) (s : State) : (replaceFrame old p s).clock = s.clock := rfl
@[simp] theorem replaceFrame_pending (old : QueueEntry) (p : Payload) (s : State) : (replaceFrame old p s).pending = s.pending := rfl

@[simp] theorem removeOrder_profile (id : OrderId) (s : State) : (removeOrder id s).profile = s.profile := rfl
@[simp] theorem removeOrder_response (id : OrderId) (s : State) : (removeOrder id s).response = s.response := rfl
@[simp] theorem removeOrder_localPort (id : OrderId) (s : State) : (removeOrder id s).localPort = s.localPort := rfl
@[simp] theorem removeOrder_timer (id : OrderId) (s : State) : (removeOrder id s).timer = s.timer := rfl
@[simp] theorem removeOrder_membership (id : OrderId) (s : State) : (removeOrder id s).membership = s.membership := rfl
@[simp] theorem removeOrder_queue (id : OrderId) (s : State) : (removeOrder id s).queue = s.queue := rfl
@[simp] theorem removeOrder_bus (id : OrderId) (s : State) : (removeOrder id s).bus = s.bus := rfl
@[simp] theorem removeOrder_carrier (id : OrderId) (s : State) : (removeOrder id s).carrier = s.carrier := rfl
@[simp] theorem removeOrder_monitor (id : OrderId) (s : State) : (removeOrder id s).monitor = s.monitor := rfl
@[simp] theorem removeOrder_resetPin (id : OrderId) (s : State) : (removeOrder id s).resetPin = s.resetPin := rfl
@[simp] theorem removeOrder_inputs (id : OrderId) (s : State) : (removeOrder id s).inputs = s.inputs := rfl
@[simp] theorem removeOrder_clock (id : OrderId) (s : State) : (removeOrder id s).clock = s.clock := rfl
@[simp] theorem removeOrder_pending (id : OrderId) (s : State) : (removeOrder id s).pending = s.pending := rfl

@[simp] theorem updateOrder_profile (id : OrderId) (f : Order → Order) (s : State) : (updateOrder id f s).profile = s.profile := rfl
@[simp] theorem updateOrder_response (id : OrderId) (f : Order → Order) (s : State) : (updateOrder id f s).response = s.response := rfl
@[simp] theorem updateOrder_localPort (id : OrderId) (f : Order → Order) (s : State) : (updateOrder id f s).localPort = s.localPort := rfl
@[simp] theorem updateOrder_timer (id : OrderId) (f : Order → Order) (s : State) : (updateOrder id f s).timer = s.timer := rfl
@[simp] theorem updateOrder_membership (id : OrderId) (f : Order → Order) (s : State) : (updateOrder id f s).membership = s.membership := rfl
@[simp] theorem updateOrder_queue (id : OrderId) (f : Order → Order) (s : State) : (updateOrder id f s).queue = s.queue := rfl
@[simp] theorem updateOrder_bus (id : OrderId) (f : Order → Order) (s : State) : (updateOrder id f s).bus = s.bus := rfl
@[simp] theorem updateOrder_carrier (id : OrderId) (f : Order → Order) (s : State) : (updateOrder id f s).carrier = s.carrier := rfl
@[simp] theorem updateOrder_monitor (id : OrderId) (f : Order → Order) (s : State) : (updateOrder id f s).monitor = s.monitor := rfl
@[simp] theorem updateOrder_resetPin (id : OrderId) (f : Order → Order) (s : State) : (updateOrder id f s).resetPin = s.resetPin := rfl
@[simp] theorem updateOrder_inputs (id : OrderId) (f : Order → Order) (s : State) : (updateOrder id f s).inputs = s.inputs := rfl
@[simp] theorem updateOrder_clock (id : OrderId) (f : Order → Order) (s : State) : (updateOrder id f s).clock = s.clock := rfl
@[simp] theorem updateOrder_pending (id : OrderId) (f : Order → Order) (s : State) : (updateOrder id f s).pending = s.pending := rfl

@[simp] theorem addOrder_profile (o : Order) (s : State) : (addOrder o s).profile = s.profile := rfl
@[simp] theorem addOrder_response (o : Order) (s : State) : (addOrder o s).response = s.response := rfl
@[simp] theorem addOrder_localPort (o : Order) (s : State) : (addOrder o s).localPort = s.localPort := rfl
@[simp] theorem addOrder_timer (o : Order) (s : State) : (addOrder o s).timer = s.timer := rfl
@[simp] theorem addOrder_membership (o : Order) (s : State) : (addOrder o s).membership = s.membership := rfl
@[simp] theorem addOrder_queue (o : Order) (s : State) : (addOrder o s).queue = s.queue := rfl
@[simp] theorem addOrder_bus (o : Order) (s : State) : (addOrder o s).bus = s.bus := rfl
@[simp] theorem addOrder_carrier (o : Order) (s : State) : (addOrder o s).carrier = s.carrier := rfl
@[simp] theorem addOrder_monitor (o : Order) (s : State) : (addOrder o s).monitor = s.monitor := rfl
@[simp] theorem addOrder_resetPin (o : Order) (s : State) : (addOrder o s).resetPin = s.resetPin := rfl
@[simp] theorem addOrder_inputs (o : Order) (s : State) : (addOrder o s).inputs = s.inputs := rfl
@[simp] theorem addOrder_clock (o : Order) (s : State) : (addOrder o s).clock = s.clock := rfl
@[simp] theorem addOrder_pending (o : Order) (s : State) : (addOrder o s).pending = s.pending := rfl

@[simp] theorem freeBallot_profile (seq : Seq) (s : State) : (freeBallot seq s).profile = s.profile := rfl
@[simp] theorem freeBallot_response (seq : Seq) (s : State) : (freeBallot seq s).response = s.response := rfl
@[simp] theorem freeBallot_localPort (seq : Seq) (s : State) : (freeBallot seq s).localPort = s.localPort := rfl
@[simp] theorem freeBallot_timer (seq : Seq) (s : State) : (freeBallot seq s).timer = s.timer := rfl
@[simp] theorem freeBallot_membership (seq : Seq) (s : State) : (freeBallot seq s).membership = s.membership := rfl
@[simp] theorem freeBallot_queue (seq : Seq) (s : State) : (freeBallot seq s).queue = s.queue := rfl
@[simp] theorem freeBallot_bus (seq : Seq) (s : State) : (freeBallot seq s).bus = s.bus := rfl
@[simp] theorem freeBallot_carrier (seq : Seq) (s : State) : (freeBallot seq s).carrier = s.carrier := rfl
@[simp] theorem freeBallot_monitor (seq : Seq) (s : State) : (freeBallot seq s).monitor = s.monitor := rfl
@[simp] theorem freeBallot_resetPin (seq : Seq) (s : State) : (freeBallot seq s).resetPin = s.resetPin := rfl
@[simp] theorem freeBallot_inputs (seq : Seq) (s : State) : (freeBallot seq s).inputs = s.inputs := rfl
@[simp] theorem freeBallot_clock (seq : Seq) (s : State) : (freeBallot seq s).clock = s.clock := rfl
@[simp] theorem freeBallot_pending (seq : Seq) (s : State) : (freeBallot seq s).pending = s.pending := rfl

@[simp] theorem updateBallot_profile (seq : Seq) (f : Ballot → Ballot) (s : State) : (updateBallot seq f s).profile = s.profile := rfl
@[simp] theorem updateBallot_response (seq : Seq) (f : Ballot → Ballot) (s : State) : (updateBallot seq f s).response = s.response := rfl
@[simp] theorem updateBallot_localPort (seq : Seq) (f : Ballot → Ballot) (s : State) : (updateBallot seq f s).localPort = s.localPort := rfl
@[simp] theorem updateBallot_timer (seq : Seq) (f : Ballot → Ballot) (s : State) : (updateBallot seq f s).timer = s.timer := rfl
@[simp] theorem updateBallot_membership (seq : Seq) (f : Ballot → Ballot) (s : State) : (updateBallot seq f s).membership = s.membership := rfl
@[simp] theorem updateBallot_queue (seq : Seq) (f : Ballot → Ballot) (s : State) : (updateBallot seq f s).queue = s.queue := rfl
@[simp] theorem updateBallot_bus (seq : Seq) (f : Ballot → Ballot) (s : State) : (updateBallot seq f s).bus = s.bus := rfl
@[simp] theorem updateBallot_carrier (seq : Seq) (f : Ballot → Ballot) (s : State) : (updateBallot seq f s).carrier = s.carrier := rfl
@[simp] theorem updateBallot_monitor (seq : Seq) (f : Ballot → Ballot) (s : State) : (updateBallot seq f s).monitor = s.monitor := rfl
@[simp] theorem updateBallot_resetPin (seq : Seq) (f : Ballot → Ballot) (s : State) : (updateBallot seq f s).resetPin = s.resetPin := rfl
@[simp] theorem updateBallot_inputs (seq : Seq) (f : Ballot → Ballot) (s : State) : (updateBallot seq f s).inputs = s.inputs := rfl
@[simp] theorem updateBallot_clock (seq : Seq) (f : Ballot → Ballot) (s : State) : (updateBallot seq f s).clock = s.clock := rfl
@[simp] theorem updateBallot_pending (seq : Seq) (f : Ballot → Ballot) (s : State) : (updateBallot seq f s).pending = s.pending := rfl

@[simp] theorem withdrawNotice_profile (cause : Cause) (s : State) : (withdrawNotice cause s).profile = s.profile := rfl
@[simp] theorem withdrawNotice_response (cause : Cause) (s : State) : (withdrawNotice cause s).response = s.response := rfl
@[simp] theorem withdrawNotice_localPort (cause : Cause) (s : State) : (withdrawNotice cause s).localPort = s.localPort := rfl
@[simp] theorem withdrawNotice_orders (cause : Cause) (s : State) : (withdrawNotice cause s).orders = s.orders := rfl
@[simp] theorem withdrawNotice_timer (cause : Cause) (s : State) : (withdrawNotice cause s).timer = s.timer := rfl
@[simp] theorem withdrawNotice_queue (cause : Cause) (s : State) : (withdrawNotice cause s).queue = s.queue := rfl
@[simp] theorem withdrawNotice_bus (cause : Cause) (s : State) : (withdrawNotice cause s).bus = s.bus := rfl
@[simp] theorem withdrawNotice_carrier (cause : Cause) (s : State) : (withdrawNotice cause s).carrier = s.carrier := rfl
@[simp] theorem withdrawNotice_resetPin (cause : Cause) (s : State) : (withdrawNotice cause s).resetPin = s.resetPin := rfl
@[simp] theorem withdrawNotice_inputs (cause : Cause) (s : State) : (withdrawNotice cause s).inputs = s.inputs := rfl
@[simp] theorem withdrawNotice_clock (cause : Cause) (s : State) : (withdrawNotice cause s).clock = s.clock := rfl
@[simp] theorem withdrawNotice_pending (cause : Cause) (s : State) : (withdrawNotice cause s).pending = s.pending := rfl

@[simp] theorem enterLeaving_profile (cause : Cause) (d : Destination) (s : State) : (enterLeaving cause d s).profile = s.profile := rfl
@[simp] theorem enterLeaving_response (cause : Cause) (d : Destination) (s : State) : (enterLeaving cause d s).response = s.response := rfl
@[simp] theorem enterLeaving_localPort (cause : Cause) (d : Destination) (s : State) : (enterLeaving cause d s).localPort = s.localPort := rfl
@[simp] theorem enterLeaving_orders (cause : Cause) (d : Destination) (s : State) : (enterLeaving cause d s).orders = s.orders := rfl
@[simp] theorem enterLeaving_queue (cause : Cause) (d : Destination) (s : State) : (enterLeaving cause d s).queue = s.queue := rfl
@[simp] theorem enterLeaving_bus (cause : Cause) (d : Destination) (s : State) : (enterLeaving cause d s).bus = s.bus := rfl
@[simp] theorem enterLeaving_monitor (cause : Cause) (d : Destination) (s : State) : (enterLeaving cause d s).monitor = s.monitor := rfl
@[simp] theorem enterLeaving_resetPin (cause : Cause) (d : Destination) (s : State) : (enterLeaving cause d s).resetPin = s.resetPin := rfl
@[simp] theorem enterLeaving_inputs (cause : Cause) (d : Destination) (s : State) : (enterLeaving cause d s).inputs = s.inputs := rfl
@[simp] theorem enterLeaving_clock (cause : Cause) (d : Destination) (s : State) : (enterLeaving cause d s).clock = s.clock := rfl
@[simp] theorem enterLeaving_pending (cause : Cause) (d : Destination) (s : State) : (enterLeaving cause d s).pending = s.pending := rfl

@[simp] theorem purgeForLeaving_profile (s : State) : (purgeForLeaving s).profile = s.profile := rfl
@[simp] theorem purgeForLeaving_response (s : State) : (purgeForLeaving s).response = s.response := rfl
@[simp] theorem purgeForLeaving_localPort (s : State) : (purgeForLeaving s).localPort = s.localPort := rfl
@[simp] theorem purgeForLeaving_orders (s : State) : (purgeForLeaving s).orders = s.orders := rfl
@[simp] theorem purgeForLeaving_timer (s : State) : (purgeForLeaving s).timer = s.timer := rfl
@[simp] theorem purgeForLeaving_membership (s : State) : (purgeForLeaving s).membership = s.membership := rfl
@[simp] theorem purgeForLeaving_carrier (s : State) : (purgeForLeaving s).carrier = s.carrier := rfl
@[simp] theorem purgeForLeaving_monitor (s : State) : (purgeForLeaving s).monitor = s.monitor := rfl
@[simp] theorem purgeForLeaving_resetPin (s : State) : (purgeForLeaving s).resetPin = s.resetPin := rfl
@[simp] theorem purgeForLeaving_inputs (s : State) : (purgeForLeaving s).inputs = s.inputs := rfl
@[simp] theorem purgeForLeaving_clock (s : State) : (purgeForLeaving s).clock = s.clock := rfl
@[simp] theorem purgeForLeaving_pending (s : State) : (purgeForLeaving s).pending = s.pending := rfl

@[simp] theorem dropFormingHello_profile (s : State) : (dropFormingHello s).profile = s.profile := rfl
@[simp] theorem dropFormingHello_response (s : State) : (dropFormingHello s).response = s.response := rfl
@[simp] theorem dropFormingHello_localPort (s : State) : (dropFormingHello s).localPort = s.localPort := rfl
@[simp] theorem dropFormingHello_orders (s : State) : (dropFormingHello s).orders = s.orders := rfl
@[simp] theorem dropFormingHello_timer (s : State) : (dropFormingHello s).timer = s.timer := rfl
@[simp] theorem dropFormingHello_membership (s : State) : (dropFormingHello s).membership = s.membership := rfl
@[simp] theorem dropFormingHello_carrier (s : State) : (dropFormingHello s).carrier = s.carrier := rfl
@[simp] theorem dropFormingHello_monitor (s : State) : (dropFormingHello s).monitor = s.monitor := rfl
@[simp] theorem dropFormingHello_resetPin (s : State) : (dropFormingHello s).resetPin = s.resetPin := rfl
@[simp] theorem dropFormingHello_inputs (s : State) : (dropFormingHello s).inputs = s.inputs := rfl
@[simp] theorem dropFormingHello_clock (s : State) : (dropFormingHello s).clock = s.clock := rfl
@[simp] theorem dropFormingHello_pending (s : State) : (dropFormingHello s).pending = s.pending := rfl

@[simp] theorem attemptOver_profile (s : State) : (attemptOver s).profile = s.profile := rfl
@[simp] theorem attemptOver_response (s : State) : (attemptOver s).response = s.response := rfl
@[simp] theorem attemptOver_localPort (s : State) : (attemptOver s).localPort = s.localPort := rfl
@[simp] theorem attemptOver_orders (s : State) : (attemptOver s).orders = s.orders := rfl
@[simp] theorem attemptOver_timer (s : State) : (attemptOver s).timer = s.timer := rfl
@[simp] theorem attemptOver_membership (s : State) : (attemptOver s).membership = s.membership := rfl
@[simp] theorem attemptOver_queue (s : State) : (attemptOver s).queue = s.queue := rfl
@[simp] theorem attemptOver_carrier (s : State) : (attemptOver s).carrier = s.carrier := rfl
@[simp] theorem attemptOver_monitor (s : State) : (attemptOver s).monitor = s.monitor := rfl
@[simp] theorem attemptOver_resetPin (s : State) : (attemptOver s).resetPin = s.resetPin := rfl
@[simp] theorem attemptOver_inputs (s : State) : (attemptOver s).inputs = s.inputs := rfl
@[simp] theorem attemptOver_clock (s : State) : (attemptOver s).clock = s.clock := rfl
@[simp] theorem attemptOver_pending (s : State) : (attemptOver s).pending = s.pending := rfl

@[simp] theorem clearAttempts_profile (s : State) : (clearAttempts s).profile = s.profile := rfl
@[simp] theorem clearAttempts_response (s : State) : (clearAttempts s).response = s.response := rfl
@[simp] theorem clearAttempts_localPort (s : State) : (clearAttempts s).localPort = s.localPort := rfl
@[simp] theorem clearAttempts_orders (s : State) : (clearAttempts s).orders = s.orders := rfl
@[simp] theorem clearAttempts_timer (s : State) : (clearAttempts s).timer = s.timer := rfl
@[simp] theorem clearAttempts_membership (s : State) : (clearAttempts s).membership = s.membership := rfl
@[simp] theorem clearAttempts_queue (s : State) : (clearAttempts s).queue = s.queue := rfl
@[simp] theorem clearAttempts_carrier (s : State) : (clearAttempts s).carrier = s.carrier := rfl
@[simp] theorem clearAttempts_monitor (s : State) : (clearAttempts s).monitor = s.monitor := rfl
@[simp] theorem clearAttempts_resetPin (s : State) : (clearAttempts s).resetPin = s.resetPin := rfl
@[simp] theorem clearAttempts_inputs (s : State) : (clearAttempts s).inputs = s.inputs := rfl
@[simp] theorem clearAttempts_clock (s : State) : (clearAttempts s).clock = s.clock := rfl
@[simp] theorem clearAttempts_pending (s : State) : (clearAttempts s).pending = s.pending := rfl

@[simp] theorem atPoint_profile (g : Grid) (point : Nat) (s : State) : (atPoint g point s).profile = s.profile := rfl
@[simp] theorem atPoint_response (g : Grid) (point : Nat) (s : State) : (atPoint g point s).response = s.response := rfl
@[simp] theorem atPoint_localPort (g : Grid) (point : Nat) (s : State) : (atPoint g point s).localPort = s.localPort := rfl
@[simp] theorem atPoint_orders (g : Grid) (point : Nat) (s : State) : (atPoint g point s).orders = s.orders := rfl
@[simp] theorem atPoint_membership (g : Grid) (point : Nat) (s : State) : (atPoint g point s).membership = s.membership := rfl
@[simp] theorem atPoint_queue (g : Grid) (point : Nat) (s : State) : (atPoint g point s).queue = s.queue := rfl
@[simp] theorem atPoint_bus (g : Grid) (point : Nat) (s : State) : (atPoint g point s).bus = s.bus := rfl
@[simp] theorem atPoint_carrier (g : Grid) (point : Nat) (s : State) : (atPoint g point s).carrier = s.carrier := rfl
@[simp] theorem atPoint_monitor (g : Grid) (point : Nat) (s : State) : (atPoint g point s).monitor = s.monitor := rfl
@[simp] theorem atPoint_resetPin (g : Grid) (point : Nat) (s : State) : (atPoint g point s).resetPin = s.resetPin := rfl
@[simp] theorem atPoint_inputs (g : Grid) (point : Nat) (s : State) : (atPoint g point s).inputs = s.inputs := rfl
@[simp] theorem atPoint_clock (g : Grid) (point : Nat) (s : State) : (atPoint g point s).clock = s.clock := rfl
@[simp] theorem atPoint_pending (g : Grid) (point : Nat) (s : State) : (atPoint g point s).pending = s.pending := rfl

@[simp] theorem clearBlindHorizon_profile (s : State) : (clearBlindHorizon s).profile = s.profile := rfl
@[simp] theorem clearBlindHorizon_response (s : State) : (clearBlindHorizon s).response = s.response := rfl
@[simp] theorem clearBlindHorizon_localPort (s : State) : (clearBlindHorizon s).localPort = s.localPort := rfl
@[simp] theorem clearBlindHorizon_orders (s : State) : (clearBlindHorizon s).orders = s.orders := rfl
@[simp] theorem clearBlindHorizon_timer (s : State) : (clearBlindHorizon s).timer = s.timer := rfl
@[simp] theorem clearBlindHorizon_queue (s : State) : (clearBlindHorizon s).queue = s.queue := rfl
@[simp] theorem clearBlindHorizon_bus (s : State) : (clearBlindHorizon s).bus = s.bus := rfl
@[simp] theorem clearBlindHorizon_carrier (s : State) : (clearBlindHorizon s).carrier = s.carrier := rfl
@[simp] theorem clearBlindHorizon_monitor (s : State) : (clearBlindHorizon s).monitor = s.monitor := rfl
@[simp] theorem clearBlindHorizon_resetPin (s : State) : (clearBlindHorizon s).resetPin = s.resetPin := rfl
@[simp] theorem clearBlindHorizon_inputs (s : State) : (clearBlindHorizon s).inputs = s.inputs := rfl
@[simp] theorem clearBlindHorizon_clock (s : State) : (clearBlindHorizon s).clock = s.clock := rfl
@[simp] theorem clearBlindHorizon_pending (s : State) : (clearBlindHorizon s).pending = s.pending := rfl

@[simp] theorem newListenSpan_profile (s : State) : (newListenSpan s).profile = s.profile := rfl
@[simp] theorem newListenSpan_response (s : State) : (newListenSpan s).response = s.response := rfl
@[simp] theorem newListenSpan_localPort (s : State) : (newListenSpan s).localPort = s.localPort := rfl
@[simp] theorem newListenSpan_orders (s : State) : (newListenSpan s).orders = s.orders := rfl
@[simp] theorem newListenSpan_timer (s : State) : (newListenSpan s).timer = s.timer := rfl
@[simp] theorem newListenSpan_queue (s : State) : (newListenSpan s).queue = s.queue := rfl
@[simp] theorem newListenSpan_bus (s : State) : (newListenSpan s).bus = s.bus := rfl
@[simp] theorem newListenSpan_carrier (s : State) : (newListenSpan s).carrier = s.carrier := rfl
@[simp] theorem newListenSpan_monitor (s : State) : (newListenSpan s).monitor = s.monitor := rfl
@[simp] theorem newListenSpan_resetPin (s : State) : (newListenSpan s).resetPin = s.resetPin := rfl
@[simp] theorem newListenSpan_inputs (s : State) : (newListenSpan s).inputs = s.inputs := rfl
@[simp] theorem newListenSpan_clock (s : State) : (newListenSpan s).clock = s.clock := rfl
@[simp] theorem newListenSpan_pending (s : State) : (newListenSpan s).pending = s.pending := rfl

@[simp] theorem armOrder_profile (o : Order) (s : State) : (armOrder o s).profile = s.profile := rfl
@[simp] theorem armOrder_response (o : Order) (s : State) : (armOrder o s).response = s.response := rfl
@[simp] theorem armOrder_localPort (o : Order) (s : State) : (armOrder o s).localPort = s.localPort := rfl
@[simp] theorem armOrder_timer (o : Order) (s : State) : (armOrder o s).timer = s.timer := rfl
@[simp] theorem armOrder_membership (o : Order) (s : State) : (armOrder o s).membership = s.membership := rfl
@[simp] theorem armOrder_queue (o : Order) (s : State) : (armOrder o s).queue = s.queue := rfl
@[simp] theorem armOrder_bus (o : Order) (s : State) : (armOrder o s).bus = s.bus := rfl
@[simp] theorem armOrder_carrier (o : Order) (s : State) : (armOrder o s).carrier = s.carrier := rfl
@[simp] theorem armOrder_monitor (o : Order) (s : State) : (armOrder o s).monitor = s.monitor := rfl
@[simp] theorem armOrder_resetPin (o : Order) (s : State) : (armOrder o s).resetPin = s.resetPin := rfl
@[simp] theorem armOrder_inputs (o : Order) (s : State) : (armOrder o s).inputs = s.inputs := rfl
@[simp] theorem armOrder_clock (o : Order) (s : State) : (armOrder o s).clock = s.clock := rfl
@[simp] theorem armOrder_pending (o : Order) (s : State) : (armOrder o s).pending = s.pending := rfl

@[simp] theorem setRoster_profile (n : StationNo) (e : RosterEntry) (s : State) : (setRoster n e s).profile = s.profile := by unfold setRoster; split <;> rfl
@[simp] theorem setRoster_response (n : StationNo) (e : RosterEntry) (s : State) : (setRoster n e s).response = s.response := by unfold setRoster; split <;> rfl
@[simp] theorem setRoster_localPort (n : StationNo) (e : RosterEntry) (s : State) : (setRoster n e s).localPort = s.localPort := by unfold setRoster; split <;> rfl
@[simp] theorem setRoster_orders (n : StationNo) (e : RosterEntry) (s : State) : (setRoster n e s).orders = s.orders := by unfold setRoster; split <;> rfl
@[simp] theorem setRoster_timer (n : StationNo) (e : RosterEntry) (s : State) : (setRoster n e s).timer = s.timer := by unfold setRoster; split <;> rfl
@[simp] theorem setRoster_queue (n : StationNo) (e : RosterEntry) (s : State) : (setRoster n e s).queue = s.queue := by unfold setRoster; split <;> rfl
@[simp] theorem setRoster_bus (n : StationNo) (e : RosterEntry) (s : State) : (setRoster n e s).bus = s.bus := by unfold setRoster; split <;> rfl
@[simp] theorem setRoster_carrier (n : StationNo) (e : RosterEntry) (s : State) : (setRoster n e s).carrier = s.carrier := by unfold setRoster; split <;> rfl
@[simp] theorem setRoster_monitor (n : StationNo) (e : RosterEntry) (s : State) : (setRoster n e s).monitor = s.monitor := by unfold setRoster; split <;> rfl
@[simp] theorem setRoster_resetPin (n : StationNo) (e : RosterEntry) (s : State) : (setRoster n e s).resetPin = s.resetPin := by unfold setRoster; split <;> rfl
@[simp] theorem setRoster_inputs (n : StationNo) (e : RosterEntry) (s : State) : (setRoster n e s).inputs = s.inputs := by unfold setRoster; split <;> rfl
@[simp] theorem setRoster_clock (n : StationNo) (e : RosterEntry) (s : State) : (setRoster n e s).clock = s.clock := by unfold setRoster; split <;> rfl
@[simp] theorem setRoster_pending (n : StationNo) (e : RosterEntry) (s : State) : (setRoster n e s).pending = s.pending := by unfold setRoster; split <;> rfl

@[simp] theorem releaseIfComplete_profile (s : State) : (releaseIfComplete s).profile = s.profile := by unfold releaseIfComplete; split <;> rfl
@[simp] theorem releaseIfComplete_response (s : State) : (releaseIfComplete s).response = s.response := by unfold releaseIfComplete; split <;> rfl
@[simp] theorem releaseIfComplete_localPort (s : State) : (releaseIfComplete s).localPort = s.localPort := by unfold releaseIfComplete; split <;> rfl
@[simp] theorem releaseIfComplete_orders (s : State) : (releaseIfComplete s).orders = s.orders := by unfold releaseIfComplete; split <;> rfl
@[simp] theorem releaseIfComplete_membership (s : State) : (releaseIfComplete s).membership = s.membership := by unfold releaseIfComplete; split <;> rfl
@[simp] theorem releaseIfComplete_queue (s : State) : (releaseIfComplete s).queue = s.queue := by unfold releaseIfComplete; split <;> rfl
@[simp] theorem releaseIfComplete_bus (s : State) : (releaseIfComplete s).bus = s.bus := by unfold releaseIfComplete; split <;> rfl
@[simp] theorem releaseIfComplete_carrier (s : State) : (releaseIfComplete s).carrier = s.carrier := by unfold releaseIfComplete; split <;> rfl
@[simp] theorem releaseIfComplete_monitor (s : State) : (releaseIfComplete s).monitor = s.monitor := by unfold releaseIfComplete; split <;> rfl
@[simp] theorem releaseIfComplete_resetPin (s : State) : (releaseIfComplete s).resetPin = s.resetPin := by unfold releaseIfComplete; split <;> rfl
@[simp] theorem releaseIfComplete_inputs (s : State) : (releaseIfComplete s).inputs = s.inputs := by unfold releaseIfComplete; split <;> rfl
@[simp] theorem releaseIfComplete_clock (s : State) : (releaseIfComplete s).clock = s.clock := by unfold releaseIfComplete; split <;> rfl
@[simp] theorem releaseIfComplete_pending (s : State) : (releaseIfComplete s).pending = s.pending := by unfold releaseIfComplete; split <;> rfl

@[simp] theorem frameEnds_profile (s : State) : (frameEnds s).profile = s.profile := by unfold frameEnds; split <;> rfl
@[simp] theorem frameEnds_response (s : State) : (frameEnds s).response = s.response := by unfold frameEnds; split <;> rfl
@[simp] theorem frameEnds_localPort (s : State) : (frameEnds s).localPort = s.localPort := by unfold frameEnds; split <;> rfl
@[simp] theorem frameEnds_orders (s : State) : (frameEnds s).orders = s.orders := by unfold frameEnds; split <;> rfl
@[simp] theorem frameEnds_timer (s : State) : (frameEnds s).timer = s.timer := by unfold frameEnds; split <;> rfl
@[simp] theorem frameEnds_membership (s : State) : (frameEnds s).membership = s.membership := by unfold frameEnds; split <;> rfl
@[simp] theorem frameEnds_queue (s : State) : (frameEnds s).queue = s.queue := by unfold frameEnds; split <;> rfl
@[simp] theorem frameEnds_carrier (s : State) : (frameEnds s).carrier = s.carrier := by unfold frameEnds; split <;> rfl
@[simp] theorem frameEnds_monitor (s : State) : (frameEnds s).monitor = s.monitor := by unfold frameEnds; split <;> rfl
@[simp] theorem frameEnds_resetPin (s : State) : (frameEnds s).resetPin = s.resetPin := by unfold frameEnds; split <;> rfl
@[simp] theorem frameEnds_inputs (s : State) : (frameEnds s).inputs = s.inputs := by unfold frameEnds; split <;> rfl
@[simp] theorem frameEnds_clock (s : State) : (frameEnds s).clock = s.clock := by unfold frameEnds; split <;> rfl
@[simp] theorem frameEnds_pending (s : State) : (frameEnds s).pending = s.pending := by unfold frameEnds; split <;> rfl

@[simp] theorem removeIf_profile (doomed : Bool) (ident : Nat) (s : State) : (removeIf doomed ident s).profile = s.profile := by unfold removeIf; split <;> rfl
@[simp] theorem removeIf_response (doomed : Bool) (ident : Nat) (s : State) : (removeIf doomed ident s).response = s.response := by unfold removeIf; split <;> rfl
@[simp] theorem removeIf_localPort (doomed : Bool) (ident : Nat) (s : State) : (removeIf doomed ident s).localPort = s.localPort := by unfold removeIf; split <;> rfl
@[simp] theorem removeIf_orders (doomed : Bool) (ident : Nat) (s : State) : (removeIf doomed ident s).orders = s.orders := by unfold removeIf; split <;> rfl
@[simp] theorem removeIf_timer (doomed : Bool) (ident : Nat) (s : State) : (removeIf doomed ident s).timer = s.timer := by unfold removeIf; split <;> rfl
@[simp] theorem removeIf_membership (doomed : Bool) (ident : Nat) (s : State) : (removeIf doomed ident s).membership = s.membership := by unfold removeIf; split <;> rfl
@[simp] theorem removeIf_carrier (doomed : Bool) (ident : Nat) (s : State) : (removeIf doomed ident s).carrier = s.carrier := by unfold removeIf; split <;> rfl
@[simp] theorem removeIf_monitor (doomed : Bool) (ident : Nat) (s : State) : (removeIf doomed ident s).monitor = s.monitor := by unfold removeIf; split <;> rfl
@[simp] theorem removeIf_resetPin (doomed : Bool) (ident : Nat) (s : State) : (removeIf doomed ident s).resetPin = s.resetPin := by unfold removeIf; split <;> rfl
@[simp] theorem removeIf_inputs (doomed : Bool) (ident : Nat) (s : State) : (removeIf doomed ident s).inputs = s.inputs := by unfold removeIf; split <;> rfl
@[simp] theorem removeIf_clock (doomed : Bool) (ident : Nat) (s : State) : (removeIf doomed ident s).clock = s.clock := by unfold removeIf; split <;> rfl
@[simp] theorem removeIf_pending (doomed : Bool) (ident : Nat) (s : State) : (removeIf doomed ident s).pending = s.pending := by unfold removeIf; split <;> rfl

@[simp] theorem postIfLive_profile (before : OutputState) (s : State) : (postIfLive before s).profile = s.profile := by unfold postIfLive; split <;> rfl
@[simp] theorem postIfLive_response (before : OutputState) (s : State) : (postIfLive before s).response = s.response := by unfold postIfLive; split <;> rfl
@[simp] theorem postIfLive_localPort (before : OutputState) (s : State) : (postIfLive before s).localPort = s.localPort := by unfold postIfLive; split <;> rfl
@[simp] theorem postIfLive_orders (before : OutputState) (s : State) : (postIfLive before s).orders = s.orders := by unfold postIfLive; split <;> rfl
@[simp] theorem postIfLive_timer (before : OutputState) (s : State) : (postIfLive before s).timer = s.timer := by unfold postIfLive; split <;> rfl
@[simp] theorem postIfLive_membership (before : OutputState) (s : State) : (postIfLive before s).membership = s.membership := by unfold postIfLive; split <;> rfl
@[simp] theorem postIfLive_queue (before : OutputState) (s : State) : (postIfLive before s).queue = s.queue := by unfold postIfLive; split <;> rfl
@[simp] theorem postIfLive_bus (before : OutputState) (s : State) : (postIfLive before s).bus = s.bus := by unfold postIfLive; split <;> rfl
@[simp] theorem postIfLive_carrier (before : OutputState) (s : State) : (postIfLive before s).carrier = s.carrier := by unfold postIfLive; split <;> rfl
@[simp] theorem postIfLive_resetPin (before : OutputState) (s : State) : (postIfLive before s).resetPin = s.resetPin := by unfold postIfLive; split <;> rfl
@[simp] theorem postIfLive_inputs (before : OutputState) (s : State) : (postIfLive before s).inputs = s.inputs := by unfold postIfLive; split <;> rfl
@[simp] theorem postIfLive_clock (before : OutputState) (s : State) : (postIfLive before s).clock = s.clock := by unfold postIfLive; split <;> rfl
@[simp] theorem postIfLive_pending (before : OutputState) (s : State) : (postIfLive before s).pending = s.pending := by unfold postIfLive; split <;> rfl

@[simp] theorem applyTone_profile (i : ToneIndex) (mode : PhaseMode) (b : Bool) (s : State) : (applyTone i mode b s).profile = s.profile := by simp only [applyTone]; split <;> simp
@[simp] theorem applyTone_response (i : ToneIndex) (mode : PhaseMode) (b : Bool) (s : State) : (applyTone i mode b s).response = s.response := by simp only [applyTone]; split <;> simp
@[simp] theorem applyTone_localPort (i : ToneIndex) (mode : PhaseMode) (b : Bool) (s : State) : (applyTone i mode b s).localPort = s.localPort := by simp only [applyTone]; split <;> simp
@[simp] theorem applyTone_orders (i : ToneIndex) (mode : PhaseMode) (b : Bool) (s : State) : (applyTone i mode b s).orders = s.orders := by simp only [applyTone]; split <;> simp
@[simp] theorem applyTone_timer (i : ToneIndex) (mode : PhaseMode) (b : Bool) (s : State) : (applyTone i mode b s).timer = s.timer := by simp only [applyTone]; split <;> simp
@[simp] theorem applyTone_membership (i : ToneIndex) (mode : PhaseMode) (b : Bool) (s : State) : (applyTone i mode b s).membership = s.membership := by simp only [applyTone]; split <;> simp
@[simp] theorem applyTone_queue (i : ToneIndex) (mode : PhaseMode) (b : Bool) (s : State) : (applyTone i mode b s).queue = s.queue := by simp only [applyTone]; split <;> simp
@[simp] theorem applyTone_bus (i : ToneIndex) (mode : PhaseMode) (b : Bool) (s : State) : (applyTone i mode b s).bus = s.bus := by simp only [applyTone]; split <;> simp
@[simp] theorem applyTone_resetPin (i : ToneIndex) (mode : PhaseMode) (b : Bool) (s : State) : (applyTone i mode b s).resetPin = s.resetPin := by simp only [applyTone]; split <;> simp
@[simp] theorem applyTone_inputs (i : ToneIndex) (mode : PhaseMode) (b : Bool) (s : State) : (applyTone i mode b s).inputs = s.inputs := by simp only [applyTone]; split <;> simp
@[simp] theorem applyTone_clock (i : ToneIndex) (mode : PhaseMode) (b : Bool) (s : State) : (applyTone i mode b s).clock = s.clock := by simp only [applyTone]; split <;> simp
@[simp] theorem applyTone_pending (i : ToneIndex) (mode : PhaseMode) (b : Bool) (s : State) : (applyTone i mode b s).pending = s.pending := by simp only [applyTone]; split <;> simp

@[simp] theorem noteMismatch_profile (n : StationNo) (d : Digest) (s : State) : (noteMismatch n d s).profile = s.profile := by unfold noteMismatch; split <;> rfl
@[simp] theorem noteMismatch_response (n : StationNo) (d : Digest) (s : State) : (noteMismatch n d s).response = s.response := by unfold noteMismatch; split <;> rfl
@[simp] theorem noteMismatch_localPort (n : StationNo) (d : Digest) (s : State) : (noteMismatch n d s).localPort = s.localPort := by unfold noteMismatch; split <;> rfl
@[simp] theorem noteMismatch_orders (n : StationNo) (d : Digest) (s : State) : (noteMismatch n d s).orders = s.orders := by unfold noteMismatch; split <;> rfl
@[simp] theorem noteMismatch_timer (n : StationNo) (d : Digest) (s : State) : (noteMismatch n d s).timer = s.timer := by unfold noteMismatch; split <;> rfl
@[simp] theorem noteMismatch_queue (n : StationNo) (d : Digest) (s : State) : (noteMismatch n d s).queue = s.queue := by unfold noteMismatch; split <;> rfl
@[simp] theorem noteMismatch_bus (n : StationNo) (d : Digest) (s : State) : (noteMismatch n d s).bus = s.bus := by unfold noteMismatch; split <;> rfl
@[simp] theorem noteMismatch_carrier (n : StationNo) (d : Digest) (s : State) : (noteMismatch n d s).carrier = s.carrier := by unfold noteMismatch; split <;> rfl
@[simp] theorem noteMismatch_resetPin (n : StationNo) (d : Digest) (s : State) : (noteMismatch n d s).resetPin = s.resetPin := by unfold noteMismatch; split <;> rfl
@[simp] theorem noteMismatch_inputs (n : StationNo) (d : Digest) (s : State) : (noteMismatch n d s).inputs = s.inputs := by unfold noteMismatch; split <;> rfl
@[simp] theorem noteMismatch_clock (n : StationNo) (d : Digest) (s : State) : (noteMismatch n d s).clock = s.clock := by unfold noteMismatch; split <;> rfl
@[simp] theorem noteMismatch_pending (n : StationNo) (d : Digest) (s : State) : (noteMismatch n d s).pending = s.pending := by unfold noteMismatch; split <;> rfl

@[simp] theorem noteRunningMismatch_profile (n : StationNo) (d : Digest) (s : State) : (noteRunningMismatch n d s).profile = s.profile := by unfold noteRunningMismatch; split <;> rfl
@[simp] theorem noteRunningMismatch_response (n : StationNo) (d : Digest) (s : State) : (noteRunningMismatch n d s).response = s.response := by unfold noteRunningMismatch; split <;> rfl
@[simp] theorem noteRunningMismatch_localPort (n : StationNo) (d : Digest) (s : State) : (noteRunningMismatch n d s).localPort = s.localPort := by unfold noteRunningMismatch; split <;> rfl
@[simp] theorem noteRunningMismatch_orders (n : StationNo) (d : Digest) (s : State) : (noteRunningMismatch n d s).orders = s.orders := by unfold noteRunningMismatch; split <;> rfl
@[simp] theorem noteRunningMismatch_timer (n : StationNo) (d : Digest) (s : State) : (noteRunningMismatch n d s).timer = s.timer := by unfold noteRunningMismatch; split <;> rfl
@[simp] theorem noteRunningMismatch_queue (n : StationNo) (d : Digest) (s : State) : (noteRunningMismatch n d s).queue = s.queue := by unfold noteRunningMismatch; split <;> rfl
@[simp] theorem noteRunningMismatch_bus (n : StationNo) (d : Digest) (s : State) : (noteRunningMismatch n d s).bus = s.bus := by unfold noteRunningMismatch; split <;> rfl
@[simp] theorem noteRunningMismatch_carrier (n : StationNo) (d : Digest) (s : State) : (noteRunningMismatch n d s).carrier = s.carrier := by unfold noteRunningMismatch; split <;> rfl
@[simp] theorem noteRunningMismatch_resetPin (n : StationNo) (d : Digest) (s : State) : (noteRunningMismatch n d s).resetPin = s.resetPin := by unfold noteRunningMismatch; split <;> rfl
@[simp] theorem noteRunningMismatch_inputs (n : StationNo) (d : Digest) (s : State) : (noteRunningMismatch n d s).inputs = s.inputs := by unfold noteRunningMismatch; split <;> rfl
@[simp] theorem noteRunningMismatch_clock (n : StationNo) (d : Digest) (s : State) : (noteRunningMismatch n d s).clock = s.clock := by unfold noteRunningMismatch; split <;> rfl
@[simp] theorem noteRunningMismatch_pending (n : StationNo) (d : Digest) (s : State) : (noteRunningMismatch n d s).pending = s.pending := by unfold noteRunningMismatch; split <;> rfl

@[simp] theorem countMemberMark_profile (s : State) : (countMemberMark s).profile = s.profile := by unfold countMemberMark; split <;> rfl
@[simp] theorem countMemberMark_response (s : State) : (countMemberMark s).response = s.response := by unfold countMemberMark; split <;> rfl
@[simp] theorem countMemberMark_localPort (s : State) : (countMemberMark s).localPort = s.localPort := by unfold countMemberMark; split <;> rfl
@[simp] theorem countMemberMark_orders (s : State) : (countMemberMark s).orders = s.orders := by unfold countMemberMark; split <;> rfl
@[simp] theorem countMemberMark_timer (s : State) : (countMemberMark s).timer = s.timer := by unfold countMemberMark; split <;> rfl
@[simp] theorem countMemberMark_queue (s : State) : (countMemberMark s).queue = s.queue := by unfold countMemberMark; split <;> rfl
@[simp] theorem countMemberMark_bus (s : State) : (countMemberMark s).bus = s.bus := by unfold countMemberMark; split <;> rfl
@[simp] theorem countMemberMark_carrier (s : State) : (countMemberMark s).carrier = s.carrier := by unfold countMemberMark; split <;> rfl
@[simp] theorem countMemberMark_monitor (s : State) : (countMemberMark s).monitor = s.monitor := by unfold countMemberMark; split <;> rfl
@[simp] theorem countMemberMark_resetPin (s : State) : (countMemberMark s).resetPin = s.resetPin := by unfold countMemberMark; split <;> rfl
@[simp] theorem countMemberMark_inputs (s : State) : (countMemberMark s).inputs = s.inputs := by unfold countMemberMark; split <;> rfl
@[simp] theorem countMemberMark_clock (s : State) : (countMemberMark s).clock = s.clock := by unfold countMemberMark; split <;> rfl
@[simp] theorem countMemberMark_pending (s : State) : (countMemberMark s).pending = s.pending := by unfold countMemberMark; split <;> rfl

@[simp] theorem raisePeer_profile (n : StationNo) (g : Option Group) (s : State) : (raisePeer n g s).profile = s.profile := by simp only [raisePeer]; split <;> simp
@[simp] theorem raisePeer_response (n : StationNo) (g : Option Group) (s : State) : (raisePeer n g s).response = s.response := by simp only [raisePeer]; split <;> simp
@[simp] theorem raisePeer_localPort (n : StationNo) (g : Option Group) (s : State) : (raisePeer n g s).localPort = s.localPort := by simp only [raisePeer]; split <;> simp
@[simp] theorem raisePeer_orders (n : StationNo) (g : Option Group) (s : State) : (raisePeer n g s).orders = s.orders := by simp only [raisePeer]; split <;> simp
@[simp] theorem raisePeer_timer (n : StationNo) (g : Option Group) (s : State) : (raisePeer n g s).timer = s.timer := by simp only [raisePeer]; split <;> simp
@[simp] theorem raisePeer_queue (n : StationNo) (g : Option Group) (s : State) : (raisePeer n g s).queue = s.queue := by simp only [raisePeer]; split <;> simp
@[simp] theorem raisePeer_bus (n : StationNo) (g : Option Group) (s : State) : (raisePeer n g s).bus = s.bus := by simp only [raisePeer]; split <;> simp
@[simp] theorem raisePeer_carrier (n : StationNo) (g : Option Group) (s : State) : (raisePeer n g s).carrier = s.carrier := by simp only [raisePeer]; split <;> simp
@[simp] theorem raisePeer_resetPin (n : StationNo) (g : Option Group) (s : State) : (raisePeer n g s).resetPin = s.resetPin := by simp only [raisePeer]; split <;> simp
@[simp] theorem raisePeer_inputs (n : StationNo) (g : Option Group) (s : State) : (raisePeer n g s).inputs = s.inputs := by simp only [raisePeer]; split <;> simp
@[simp] theorem raisePeer_clock (n : StationNo) (g : Option Group) (s : State) : (raisePeer n g s).clock = s.clock := by simp only [raisePeer]; split <;> simp
@[simp] theorem raisePeer_pending (n : StationNo) (g : Option Group) (s : State) : (raisePeer n g s).pending = s.pending := by simp only [raisePeer]; split <;> simp

@[simp] theorem heardFrom_profile (n : StationNo) (s : State) : (heardFrom n s).profile = s.profile := by simp [heardFrom]
@[simp] theorem heardFrom_response (n : StationNo) (s : State) : (heardFrom n s).response = s.response := by simp [heardFrom]
@[simp] theorem heardFrom_localPort (n : StationNo) (s : State) : (heardFrom n s).localPort = s.localPort := by simp [heardFrom]
@[simp] theorem heardFrom_orders (n : StationNo) (s : State) : (heardFrom n s).orders = s.orders := by simp [heardFrom]
@[simp] theorem heardFrom_timer (n : StationNo) (s : State) : (heardFrom n s).timer = s.timer := by simp [heardFrom]
@[simp] theorem heardFrom_queue (n : StationNo) (s : State) : (heardFrom n s).queue = s.queue := by simp [heardFrom]
@[simp] theorem heardFrom_bus (n : StationNo) (s : State) : (heardFrom n s).bus = s.bus := by simp [heardFrom]
@[simp] theorem heardFrom_carrier (n : StationNo) (s : State) : (heardFrom n s).carrier = s.carrier := by simp [heardFrom]
@[simp] theorem heardFrom_resetPin (n : StationNo) (s : State) : (heardFrom n s).resetPin = s.resetPin := by simp [heardFrom]
@[simp] theorem heardFrom_inputs (n : StationNo) (s : State) : (heardFrom n s).inputs = s.inputs := by simp [heardFrom]
@[simp] theorem heardFrom_clock (n : StationNo) (s : State) : (heardFrom n s).clock = s.clock := by simp [heardFrom]
@[simp] theorem heardFrom_pending (n : StationNo) (s : State) : (heardFrom n s).pending = s.pending := by simp [heardFrom]

@[simp] theorem heardLeaving_profile (n : StationNo) (s : State) : (heardLeaving n s).profile = s.profile := by simp only [heardLeaving]; split <;> simp
@[simp] theorem heardLeaving_response (n : StationNo) (s : State) : (heardLeaving n s).response = s.response := by simp only [heardLeaving]; split <;> simp
@[simp] theorem heardLeaving_localPort (n : StationNo) (s : State) : (heardLeaving n s).localPort = s.localPort := by simp only [heardLeaving]; split <;> simp
@[simp] theorem heardLeaving_orders (n : StationNo) (s : State) : (heardLeaving n s).orders = s.orders := by simp only [heardLeaving]; split <;> simp
@[simp] theorem heardLeaving_timer (n : StationNo) (s : State) : (heardLeaving n s).timer = s.timer := by simp only [heardLeaving]; split <;> simp
@[simp] theorem heardLeaving_queue (n : StationNo) (s : State) : (heardLeaving n s).queue = s.queue := by simp only [heardLeaving]; split <;> simp
@[simp] theorem heardLeaving_bus (n : StationNo) (s : State) : (heardLeaving n s).bus = s.bus := by simp only [heardLeaving]; split <;> simp
@[simp] theorem heardLeaving_carrier (n : StationNo) (s : State) : (heardLeaving n s).carrier = s.carrier := by simp only [heardLeaving]; split <;> simp
@[simp] theorem heardLeaving_monitor (n : StationNo) (s : State) : (heardLeaving n s).monitor = s.monitor := by simp only [heardLeaving]; split <;> simp
@[simp] theorem heardLeaving_resetPin (n : StationNo) (s : State) : (heardLeaving n s).resetPin = s.resetPin := by simp only [heardLeaving]; split <;> simp
@[simp] theorem heardLeaving_inputs (n : StationNo) (s : State) : (heardLeaving n s).inputs = s.inputs := by simp only [heardLeaving]; split <;> simp
@[simp] theorem heardLeaving_clock (n : StationNo) (s : State) : (heardLeaving n s).clock = s.clock := by simp only [heardLeaving]; split <;> simp
@[simp] theorem heardLeaving_pending (n : StationNo) (s : State) : (heardLeaving n s).pending = s.pending := by simp only [heardLeaving]; split <;> simp

@[simp] theorem retireOrder_profile (id : OrderId) (s : State) : (retireOrder id s).profile = s.profile := by simp only [retireOrder]; split <;> simp
@[simp] theorem retireOrder_response (id : OrderId) (s : State) : (retireOrder id s).response = s.response := by simp only [retireOrder]; split <;> simp
@[simp] theorem retireOrder_localPort (id : OrderId) (s : State) : (retireOrder id s).localPort = s.localPort := by simp only [retireOrder]; split <;> simp
@[simp] theorem retireOrder_timer (id : OrderId) (s : State) : (retireOrder id s).timer = s.timer := by simp only [retireOrder]; split <;> simp
@[simp] theorem retireOrder_membership (id : OrderId) (s : State) : (retireOrder id s).membership = s.membership := by simp only [retireOrder]; split <;> simp
@[simp] theorem retireOrder_carrier (id : OrderId) (s : State) : (retireOrder id s).carrier = s.carrier := by simp only [retireOrder]; split <;> simp
@[simp] theorem retireOrder_monitor (id : OrderId) (s : State) : (retireOrder id s).monitor = s.monitor := by simp only [retireOrder]; split <;> simp
@[simp] theorem retireOrder_resetPin (id : OrderId) (s : State) : (retireOrder id s).resetPin = s.resetPin := by simp only [retireOrder]; split <;> simp
@[simp] theorem retireOrder_inputs (id : OrderId) (s : State) : (retireOrder id s).inputs = s.inputs := by simp only [retireOrder]; split <;> simp
@[simp] theorem retireOrder_clock (id : OrderId) (s : State) : (retireOrder id s).clock = s.clock := by simp only [retireOrder]; split <;> simp
@[simp] theorem retireOrder_pending (id : OrderId) (s : State) : (retireOrder id s).pending = s.pending := by simp only [retireOrder]; split <;> simp

/-- A tally changes only the Monitor. -/
@[simp] theorem countTally_profile (k : TallyKind) (s : State) : (countTally k s).1.profile = s.profile := by
  unfold countTally; dsimp only; split
  · split <;> rfl
  · rfl
@[simp] theorem countTally_response (k : TallyKind) (s : State) : (countTally k s).1.response = s.response := by
  unfold countTally; dsimp only; split
  · split <;> rfl
  · rfl
@[simp] theorem countTally_localPort (k : TallyKind) (s : State) : (countTally k s).1.localPort = s.localPort := by
  unfold countTally; dsimp only; split
  · split <;> rfl
  · rfl
@[simp] theorem countTally_orders (k : TallyKind) (s : State) : (countTally k s).1.orders = s.orders := by
  unfold countTally; dsimp only; split
  · split <;> rfl
  · rfl
@[simp] theorem countTally_timer (k : TallyKind) (s : State) : (countTally k s).1.timer = s.timer := by
  unfold countTally; dsimp only; split
  · split <;> rfl
  · rfl
@[simp] theorem countTally_membership (k : TallyKind) (s : State) : (countTally k s).1.membership = s.membership := by
  unfold countTally; dsimp only; split
  · split <;> rfl
  · rfl
@[simp] theorem countTally_queue (k : TallyKind) (s : State) : (countTally k s).1.queue = s.queue := by
  unfold countTally; dsimp only; split
  · split <;> rfl
  · rfl
@[simp] theorem countTally_bus (k : TallyKind) (s : State) : (countTally k s).1.bus = s.bus := by
  unfold countTally; dsimp only; split
  · split <;> rfl
  · rfl
@[simp] theorem countTally_carrier (k : TallyKind) (s : State) : (countTally k s).1.carrier = s.carrier := by
  unfold countTally; dsimp only; split
  · split <;> rfl
  · rfl
@[simp] theorem countTally_resetPin (k : TallyKind) (s : State) : (countTally k s).1.resetPin = s.resetPin := by
  unfold countTally; dsimp only; split
  · split <;> rfl
  · rfl
@[simp] theorem countTally_inputs (k : TallyKind) (s : State) : (countTally k s).1.inputs = s.inputs := by
  unfold countTally; dsimp only; split
  · split <;> rfl
  · rfl
@[simp] theorem countTally_clock (k : TallyKind) (s : State) : (countTally k s).1.clock = s.clock := by
  unfold countTally; dsimp only; split
  · split <;> rfl
  · rfl
@[simp] theorem countTally_pending (k : TallyKind) (s : State) : (countTally k s).1.pending = s.pending := by
  unfold countTally; dsimp only; split
  · split <;> rfl
  · rfl

end Sys2Proof.Machine
end

