-- ==== Sys2Proof/Laws/Tables.lean ====
section
/-! SUPPORT. The laws of tables: what a read gives after a write, and what the held records are after each change. -/

namespace Sys2Proof

variable {α β : Type} {n : Nat}

theorem Table.ext_items {a b : Table α n} (h : a.items = b.items) : a = b := by
  cases a; cases b; cases h; rfl

theorem Table.get_eq (t : Table α n) (i : Fin n) : t.get i = t.items[i.val]'(by rw [t.sized]; exact i.isLt) := rfl

/-- Two tables with the same entries are the same. -/
theorem Table.ext_get {a b : Table α n} (h : ∀ i, a.get i = b.get i) : a = b := by
  apply Table.ext_items
  apply List.ext_getElem (by rw [a.sized, b.sized])
  intro k h1 _
  simpa [Table.get_eq] using h ⟨k, by rw [← a.sized]; exact h1⟩

@[simp] theorem Table.get_fill (a : α) (i : Fin n) : (Table.fill n a).get i = a := by
  simp [Table.get_eq, Table.fill]

theorem Table.get_set (t : Table α n) (i j : Fin n) (a : α) : (t.set i a).get j = if j = i then a else t.get j := by
  simp only [Table.get_eq, Table.set, List.getElem_set, Fin.ext_iff, eq_comm]

@[simp] theorem Table.get_set_self (t : Table α n) (i : Fin n) (a : α) : (t.set i a).get i = a := by simp [Table.get_set]

theorem Table.get_set_other (t : Table α n) {i j : Fin n} (a : α) (h : j ≠ i) : (t.set i a).get j = t.get j := by
  simp [Table.get_set, h]

@[simp] theorem Table.get_map (f : α → β) (t : Table α n) (i : Fin n) : (t.map f).get i = f (t.get i) := by
  simp [Table.get_eq, Table.map]

@[simp] theorem Table.get_mapWith (f : Nat → α → β) (t : Table α n) (i : Fin n) :
    (t.mapWith f).get i = f i.val (t.get i) := by
  simp [Table.get_eq, Table.mapWith]

theorem Table.mem_held (t : Table (Option α) n) (a : α) : a ∈ t.held ↔ ∃ i, t.get i = some a := by
  have : a ∈ t.held ↔ some a ∈ t.items := by simp [Table.held]
  rw [this, List.mem_iff_getElem]
  constructor
  · rintro ⟨k, hk, h⟩; exact ⟨⟨k, t.sized ▸ hk⟩, h⟩
  · rintro ⟨i, h⟩; exact ⟨i.val, by rw [t.sized]; exact i.isLt, h⟩

theorem Table.held_length_le (t : Table (Option α) n) : t.held.length ≤ n := by
  have := t.items.length_filterMap_le id
  rw [t.sized] at this; exact this

@[simp] theorem Table.held_fill : (Table.fill n (none : Option α)).held = [] := by
  simp [Table.held, Table.fill]

theorem Table.held_dropWhere (t : Table (Option α) n) (p : α → Bool) :
    (t.dropWhere p).held = t.held.filter fun a => !p a := by
  simp only [Table.held, Table.dropWhere, Table.map]
  induction t.items with
  | nil => rfl
  | cons o l ih => cases o with
    | none => simpa using ih
    | some a => cases h : p a <;> simpa [h] using ih

theorem Table.held_updateWhere (t : Table (Option α) n) (p : α → Bool) (f : α → α) :
    (t.updateWhere p f).held = t.held.map fun a => if p a then f a else a := by
  simp only [Table.held, Table.updateWhere, Table.map]
  induction t.items with
  | nil => rfl
  | cons o l ih => cases o with
    | none => simpa using ih
    | some a => cases h : p a <;> simpa [h] using ih

theorem Table.held_map_option (t : Table (Option α) n) (f : α → β) : (t.map (Option.map f)).held = t.held.map f := by
  simp only [Table.held, Table.map]
  induction t.items with
  | nil => rfl
  | cons o l ih => cases o <;> simpa using ih

/-- Filling the first free slot of a full table changes nothing. -/
theorem fillFirst_full (a : α) (l : List (Option α)) (h : none ∉ l) : fillFirst a l = l := by
  induction l with
  | nil => rfl
  | cons o l ih => cases o with
    | none => simp at h
    | some b => simp_all [fillFirst]

/-- Filling the first free slot adds one record between those below and those above it. -/
theorem fillFirst_held (a : α) (l : List (Option α)) (h : none ∈ l) :
    ∃ below above, l.filterMap id = below ++ above ∧ (fillFirst a l).filterMap id = below ++ a :: above := by
  induction l with
  | nil => simp at h
  | cons o l ih => cases o with
    | none => exact ⟨[], l.filterMap id, by simp, by simp [fillFirst]⟩
    | some b =>
      obtain ⟨x, y, h1, h2⟩ := ih (by simpa using h)
      exact ⟨b :: x, y, by simpa using h1, by simpa [fillFirst] using h2⟩

/-- A table that holds fewer records than it has slots has a free slot. -/
theorem Table.free_slot (t : Table (Option α) n) (h : t.held.length < n) : none ∈ t.items := by
  by_contra hn
  have : t.held.length = t.items.length := by
    apply List.filterMap_length_eq_length.mpr
    intro o ho
    cases o with
    | none => exact absurd ho hn
    | some a => rfl
  rw [t.sized] at this; omega

theorem Table.held_putFirstFree (t : Table (Option α) n) (a : α) (h : t.held.length < n) :
    ∃ below above, t.held = below ++ above ∧ (t.putFirstFree a).held = below ++ a :: above :=
  fillFirst_held a t.items (t.free_slot h)

/-- The records of a table after one is put into its first free slot. -/
theorem Table.mem_held_putFirstFree (t : Table (Option α) n) (a x : α) (h : t.held.length < n) :
    x ∈ (t.putFirstFree a).held ↔ x ∈ t.held ∨ x = a := by
  obtain ⟨u, v, h1, h2⟩ := t.held_putFirstFree a h
  rw [h1, h2]; simp only [List.mem_append, List.mem_cons]; tauto

theorem Table.mem_held_of_mem_putFirstFree (t : Table (Option α) n) (a x : α) (h : x ∈ (t.putFirstFree a).held) :
    x ∈ t.held ∨ x = a := by
  rcases Nat.lt_or_ge t.held.length n with hl | hl
  · exact (t.mem_held_putFirstFree a x hl).mp h
  · by_cases hn : none ∈ t.items
    · obtain ⟨u, v, h1, h2⟩ := fillFirst_held a t.items hn
      have : x ∈ u ++ a :: v := h2 ▸ h
      simp only [List.mem_append, List.mem_cons] at this
      have : x ∈ u ++ v ∨ x = a := by simp only [List.mem_append]; tauto
      exact this.imp_left fun h => by rw [Table.held, h1]; exact h
    · left; rw [Table.held, ← fillFirst_full a t.items hn]; exact h

end Sys2Proof
end

