-- ==== Sys2Proof/Laws/Orders.lean ====
section
/-! SUPPORT. What the live orders, the open ballots and the Roster are after each shared update. -/

namespace Sys2Proof.Machine

/-! ### Live orders and open ballots -/

theorem liveOrders_congr {s t : State} (h : t.orders = s.orders) : liveOrders t = liveOrders s := by
  rw [liveOrders, h, liveOrders]

theorem openBallots_congr {s t : State} (h : t.orders = s.orders) : openBallots t = openBallots s := by
  rw [openBallots, h, openBallots]

theorem liveOrders_removeOrder (id : OrderId) (s : State) :
    liveOrders (removeOrder id s) = (liveOrders s).filter fun o => !(o.id == id) :=
  Table.held_dropWhere ..

theorem liveOrders_updateOrder (id : OrderId) (f : Order → Order) (s : State) :
    liveOrders (updateOrder id f s) = (liveOrders s).map fun o => if o.id == id then f o else o :=
  Table.held_updateWhere ..

theorem mem_liveOrders_addOrder (o x : Order) (s : State) (h : (liveOrders s).length < 16) :
    x ∈ liveOrders (addOrder o s) ↔ x ∈ liveOrders s ∨ x = o :=
  Table.mem_held_putFirstFree _ _ _ h

@[simp] theorem liveOrders_freeBallot (seq : Seq) (s : State) : liveOrders (freeBallot seq s) = liveOrders s := rfl
@[simp] theorem liveOrders_updateBallot (seq : Seq) (f : Ballot → Ballot) (s : State) :
    liveOrders (updateBallot seq f s) = liveOrders s := rfl

theorem openBallots_freeBallot (seq : Seq) (s : State) :
    openBallots (freeBallot seq s) = (openBallots s).filter fun b => !(b.seq == seq) :=
  Table.held_dropWhere ..

theorem openBallots_updateBallot (seq : Seq) (f : Ballot → Ballot) (s : State) :
    openBallots (updateBallot seq f s) = (openBallots s).map fun b => if b.seq == seq then f b else b :=
  Table.held_updateWhere ..

@[simp] theorem openBallots_removeOrder (id : OrderId) (s : State) :
    openBallots (removeOrder id s) = openBallots s := rfl
@[simp] theorem openBallots_updateOrder (id : OrderId) (f : Order → Order) (s : State) :
    openBallots (updateOrder id f s) = openBallots s := rfl
@[simp] theorem openBallots_addOrder (o : Order) (s : State) : openBallots (addOrder o s) = openBallots s := rfl

theorem liveOrders_cleared (s : State) (o : OrderEngine) (h : s.orders = ordersCleared o) : liveOrders s = [] := by
  rw [liveOrders, h]; exact Table.held_fill

theorem openBallots_cleared (s : State) (o : OrderEngine) (h : s.orders = ordersCleared o) : openBallots s = [] := by
  rw [openBallots, h]; exact Table.held_fill

/-- A ballot found by its sequence is open and has that sequence. -/
theorem ballotWithSeq_some {s : State} {seq : Seq} {b : Ballot} (h : ballotWithSeq s seq = some b) :
    b ∈ openBallots s ∧ b.seq = seq := by
  refine ⟨List.mem_of_find?_eq_some h, ?_⟩
  simpa using List.find?_some h

/-- An order found by its id is live and has that id. -/
theorem orderWithId_some {s : State} {id : OrderId} {o : Order} (h : orderWithId s id = some o) :
    o ∈ liveOrders s ∧ o.id = id := by
  refine ⟨List.mem_of_find?_eq_some h, ?_⟩
  simpa using List.find?_some h

/-- An order found by its target is live and has that target. -/
theorem orderWithTarget_some {s : State} {t : Epoch} {o : Order} (h : orderWithTarget s t = some o) :
    o ∈ liveOrders s ∧ o.target = t := by
  refine ⟨List.mem_of_find?_eq_some h, ?_⟩
  simpa using List.find?_some h

theorem orderWithTarget_none {s : State} {t : Epoch} : orderWithTarget s t = none ↔ ∀ o ∈ liveOrders s, o.target ≠ t := by
  simp [orderWithTarget]

theorem orderWithId_none {s : State} {id : OrderId} : orderWithId s id = none ↔ ∀ o ∈ liveOrders s, o.id ≠ id := by
  simp [orderWithId]

/-- While the live orders are distinct, the order found for a target is the one that has it. -/
theorem orderWithTarget_eq {s : State} {o : Order} (hd : ScheduleDistinct s) (ho : o ∈ liveOrders s) :
    orderWithTarget s o.target = some o := by
  unfold orderWithTarget
  unfold ScheduleDistinct at hd
  generalize liveOrders s = l at *
  induction l with
  | nil => simp at ho
  | cons a l ih =>
    rw [List.pairwise_cons] at hd
    rcases List.mem_cons.mp ho with rfl | h
    · simp
    · have : a.target ≠ o.target := (hd.1 o h).2
      simp [this, ih hd.2 h]

/-! ### The Roster -/

theorem rosterEntry_congr {s t : State} (h : t.membership = s.membership) (n : StationNo) :
    rosterEntry t n = rosterEntry s n := by
  rw [rosterEntry, h, rosterEntry]

theorem rosterEntry_setRoster (n m : StationNo) (e : RosterEntry) (s : State) :
    rosterEntry (setRoster n e s) m = if m = n ∧ n ≠ ownNumber s then e else rosterEntry s m := by
  unfold setRoster
  split
  · rename_i h; simp [h]
  · rename_i h; simp [rosterEntry, Table.get_set, h]

@[simp] theorem setRoster_state (n : StationNo) (e : RosterEntry) (s : State) :
    (setRoster n e s).membership.state = s.membership.state := by
  unfold setRoster; split <;> rfl

@[simp] theorem setRoster_leaving (n : StationNo) (e : RosterEntry) (s : State) :
    (setRoster n e s).membership.leaving = s.membership.leaving := by
  unfold setRoster; split <;> rfl

@[simp] theorem heardFrom_state (n : StationNo) (s : State) :
    (heardFrom n s).membership.state = s.membership.state := by
  simp only [heardFrom, raisePeer]; split <;> simp

end Sys2Proof.Machine
end

