-- ==== Sys2Proof/Laws/Losses.lean ====
section
/-! SUPPORT. What an offer to the Transmit Queue, a lost frame and an abort can do, said once: any property that their few
basic updates keep, they keep; and what they leave as it is follows. -/

namespace Sys2Proof.Machine

/-- A property that every basic update of an offer, a loss and an abort keeps. -/
structure KeptByLosses (P : State → Prop) : Prop where
  post : ∀ (r : Report) (s : State), P s → P (Machine.post r s)
  append : ∀ p s, P s → P (appendFrame p s)
  replace : ∀ e p s, P s → P (replaceFrame e p s)
  remove : ∀ i s, P s → P (removeFrame i s)
  displace : ∀ (a : Sending) (s : State), P s → P { s with bus := { s.bus with sending := some { a with displaced := true } } }
  unsent : ∀ id s, P s → P (updateOrder id (fun o => { o with vote := .unsent }) s)
  abandon : ∀ id seq s, P s → P (purgeOrder id (freeBallot seq (removeOrder id s)))
  leave : ∀ s, P s → P (endLeaving s)

variable {P : State → Prop}

/-- An offer keeps a property that its basic updates and the consequence of a loss keep. -/
theorem offerWith_keeps (h : KeptByLosses P) {f : Payload → State → State} (hf : ∀ p s, P s → P (f p s)) (p : Payload)
    (s : State) (hs : P s) : P (offerWith f p s) := by
  unfold offerWith
  split
  · split
    · exact hf _ _ (h.post _ _ hs)
    · exact h.replace _ _ _ hs
  · split
    · exact h.append _ _ hs
    · split
      · split
        · exact hf _ _ (h.post _ _ (h.append _ _ (h.remove _ _ hs)))
        · split
          · exact h.append _ _ (h.remove _ _ (h.displace _ _ hs))
          · exact hs
      · exact hf _ _ (h.post _ _ hs)

/-- An abort keeps a property that its basic updates and the consequence of a loss keep. -/
theorem abortWith_keeps (h : KeptByLosses P) {f : Payload → State → State} (hf : ∀ p s, P s → P (f p s)) (b : Ballot)
    (reason : AbortReason) (refuser : StationNo) (s : State) (hs : P s) : P (abortWith f b reason refuser s) := by
  unfold abortWith
  apply h.post
  split
  · exact h.abandon _ _ _ hs
  · exact offerWith_keeps h hf _ _ (h.abandon _ _ _ hs)

/-- The consequence of a loss keeps a property that the basic updates keep. -/
theorem lose_keeps (h : KeptByLosses P) (n : Nat) (p : Payload) (s : State) (hs : P s) : P (lose n p s) := by
  induction n generalizing p s with
  | zero => exact hs
  | succ n ih =>
    unfold lose
    split
    · split
      · split
        · exact abortWith_keeps h ih _ _ _ _ hs
        · exact hs
      · exact hs
    · split
      · split
        · exact abortWith_keeps h ih _ _ _ _ hs
        · exact hs
      · exact hs
    · exact h.unsent _ _ hs
    · exact h.leave _ hs
    · exact hs

theorem loseFrame_keeps (h : KeptByLosses P) (p : Payload) (s : State) (hs : P s) : P (loseFrame p s) :=
  lose_keeps h _ p s hs

theorem offer_keeps (h : KeptByLosses P) (p : Payload) (s : State) (hs : P s) : P (offer p s) :=
  offerWith_keeps h (loseFrame_keeps h) p s hs

theorem abortOwn_keeps (h : KeptByLosses P) (b : Ballot) (reason : AbortReason) (refuser : StationNo) (s : State)
    (hs : P s) : P (abortOwn b reason refuser s) :=
  abortWith_keeps h (loseFrame_keeps h) b reason refuser s hs

/-- The check of a ballot adds one basic update to an offer. -/
theorem checkBallot_keeps (h : KeptByLosses P) (hc : ∀ seq s, P s → P (updateBallot seq (fun x => { x with state := .committing }) s))
    (seq : Seq) (s : State) (hs : P s) : P (checkBallot seq s) := by
  unfold checkBallot
  split
  · split
    · exact offer_keeps h _ _ (hc _ _ hs)
    · exact hs
  · exact hs

/-- The loss of an elector adds the removal from every electorate. -/
theorem loseElector_keeps (h : KeptByLosses P)
    (hc : ∀ seq s, P s → P (updateBallot seq (fun x => { x with state := .committing }) s)) (n : StationNo) (s : State)
    (hs : P { s with orders := { s.orders with ballots := s.orders.ballots.map (Option.map (withoutElector n)) } }) :
    P (loseElector n s) := by
  unfold loseElector
  generalize openBallots s = l
  revert hs
  generalize { s with orders := { s.orders with ballots := s.orders.ballots.map (Option.map (withoutElector n)) } } = t
  intro ht
  induction l generalizing t with
  | nil => exact ht
  | cons b l ih => exact ih _ (checkBallot_keeps h hc _ _ ht)

/-! ### What every loss leaves as it is -/

@[simp] theorem endLeaving_profile (s : State) : (endLeaving s).profile = s.profile := by
  unfold endLeaving; split <;> [rfl; split <;> rfl]
@[simp] theorem endLeaving_response (s : State) : (endLeaving s).response = s.response := by
  unfold endLeaving; split <;> [rfl; split <;> rfl]
@[simp] theorem endLeaving_carrier (s : State) : (endLeaving s).carrier = s.carrier := by
  unfold endLeaving; split <;> [rfl; split <;> rfl]
@[simp] theorem endLeaving_clock (s : State) : (endLeaving s).clock = s.clock := by
  unfold endLeaving; split <;> [rfl; split <;> rfl]
@[simp] theorem endLeaving_pending (s : State) : (endLeaving s).pending = s.pending := by
  unfold endLeaving; split <;> [rfl; split <;> rfl]
@[simp] theorem endLeaving_sequence (s : State) : (endLeaving s).orders.sequence = s.orders.sequence := by
  unfold endLeaving; split <;> [rfl; split <;> rfl]
@[simp] theorem endLeaving_localPort (s : State) : (endLeaving s).localPort = s.localPort := by
  unfold endLeaving; split <;> [rfl; split <;> rfl]
@[simp] theorem endLeaving_resetPin (s : State) : (endLeaving s).resetPin = s.resetPin := by
  unfold endLeaving; split <;> [rfl; split <;> rfl]
@[simp] theorem endLeaving_inputs (s : State) : (endLeaving s).inputs = s.inputs := by
  unfold endLeaving; split <;> [rfl; split <;> rfl]
theorem endLeaving_none (s : State) (h : s.membership.leaving = none) : endLeaving s = s := by
  unfold endLeaving; rw [h]

/-- The fields that no loss touches. -/
def SameBase (s t : State) : Prop :=
  t.profile = s.profile ∧ t.response = s.response ∧ t.carrier = s.carrier ∧ t.clock = s.clock ∧ t.pending = s.pending ∧
    t.orders.sequence = s.orders.sequence ∧ t.localPort = s.localPort ∧ t.resetPin = s.resetPin ∧ t.inputs = s.inputs

theorem SameBase.refl (s : State) : SameBase s s := ⟨rfl, rfl, rfl, rfl, rfl, rfl, rfl, rfl, rfl⟩

theorem SameBase.keptByLosses (s : State) : KeptByLosses (SameBase s) := by
  constructor <;> intros <;> simp_all [SameBase] <;> simp [freeBallot, removeOrder, updateOrder, *]

/-- Outside LEAVING a loss touches neither the Epoch Timer nor the Membership Controller. -/
def SameStation (s t : State) : Prop := t.timer = s.timer ∧ t.membership = s.membership ∧ s.membership.leaving = none

theorem SameStation.keptByLosses (s : State) : KeptByLosses (SameStation s) := by
  constructor
  case leave => intro t h; rw [endLeaving_none t (h.2.1 ▸ h.2.2)]; exact h
  all_goals intros; simp_all [SameStation]

theorem offer_base (p : Payload) (s : State) : SameBase s (offer p s) :=
  offer_keeps (SameBase.keptByLosses s) p s (SameBase.refl s)

@[simp] theorem offer_profile (p : Payload) (s : State) : (offer p s).profile = s.profile := (offer_base p s).1
@[simp] theorem offer_response (p : Payload) (s : State) : (offer p s).response = s.response := (offer_base p s).2.1
@[simp] theorem offer_carrier (p : Payload) (s : State) : (offer p s).carrier = s.carrier := (offer_base p s).2.2.1
@[simp] theorem offer_clock (p : Payload) (s : State) : (offer p s).clock = s.clock := (offer_base p s).2.2.2.1
@[simp] theorem offer_pending (p : Payload) (s : State) : (offer p s).pending = s.pending := (offer_base p s).2.2.2.2.1
@[simp] theorem offer_sequence (p : Payload) (s : State) : (offer p s).orders.sequence = s.orders.sequence :=
  (offer_base p s).2.2.2.2.2.1
@[simp] theorem offer_localPort (p : Payload) (s : State) : (offer p s).localPort = s.localPort :=
  (offer_base p s).2.2.2.2.2.2.1
@[simp] theorem offer_resetPin (p : Payload) (s : State) : (offer p s).resetPin = s.resetPin :=
  (offer_base p s).2.2.2.2.2.2.2.1
@[simp] theorem offer_inputs (p : Payload) (s : State) : (offer p s).inputs = s.inputs :=
  (offer_base p s).2.2.2.2.2.2.2.2

theorem offer_station (p : Payload) (s : State) (h : s.membership.leaving = none) :
    (offer p s).timer = s.timer ∧ (offer p s).membership = s.membership := by
  have := offer_keeps (SameStation.keptByLosses s) p s ⟨rfl, rfl, h⟩
  exact ⟨this.1, this.2.1⟩

theorem loseFrame_base (p : Payload) (s : State) : SameBase s (loseFrame p s) :=
  loseFrame_keeps (SameBase.keptByLosses s) p s (SameBase.refl s)

theorem abortOwn_base (b : Ballot) (reason : AbortReason) (refuser : StationNo) (s : State) :
    SameBase s (abortOwn b reason refuser s) :=
  abortOwn_keeps (SameBase.keptByLosses s) b reason refuser s (SameBase.refl s)

theorem abortOwn_station (b : Ballot) (reason : AbortReason) (refuser : StationNo) (s : State)
    (h : s.membership.leaving = none) :
    (abortOwn b reason refuser s).timer = s.timer ∧ (abortOwn b reason refuser s).membership = s.membership := by
  have := abortOwn_keeps (SameStation.keptByLosses s) b reason refuser s ⟨rfl, rfl, h⟩
  exact ⟨this.1, this.2.1⟩

/-- An offer with a place free and no frame of its limit class held only adds the frame. -/
theorem offer_room (p : Payload) (s : State) (hl : ∀ e ∈ s.queue.entries, sameLimit p e.payload = false)
    (hr : s.queue.entries.length < 8) : offer p s = appendFrame p s := by
  have : s.queue.entries.find? (fun e => sameLimit p e.payload) = none := by simpa using hl
  simp [offer, offerWith, this, Config.queuePlaces, hr]

end Sys2Proof.Machine
end

