-- ==== Sys2Proof/Laws/Cohort.lean ====
section
/-! SUPPORT. What the shared operations of the Membership Controller leave as it is: withdrawal, the return to LISTEN,
alignment, and the loss of a peer. -/

namespace Sys2Proof.Machine

/-- The fields that no operation of the Membership Controller touches. -/
def SameRecords (s t : State) : Prop :=
  t.profile = s.profile ∧ t.response = s.response ∧ t.carrier.tones = s.carrier.tones ∧ t.clock = s.clock ∧
    t.pending = s.pending ∧ t.orders.sequence = s.orders.sequence ∧ t.localPort = s.localPort ∧ t.resetPin = s.resetPin ∧
    t.inputs = s.inputs

theorem SameRecords.refl (s : State) : SameRecords s s := ⟨rfl, rfl, rfl, rfl, rfl, rfl, rfl, rfl, rfl⟩

theorem SameRecords.trans {s t u : State} (h : SameRecords s t) (k : SameRecords t u) : SameRecords s u :=
  ⟨k.1.trans h.1, k.2.1.trans h.2.1, k.2.2.1.trans h.2.2.1, k.2.2.2.1.trans h.2.2.2.1,
    k.2.2.2.2.1.trans h.2.2.2.2.1, k.2.2.2.2.2.1.trans h.2.2.2.2.2.1, k.2.2.2.2.2.2.1.trans h.2.2.2.2.2.2.1,
    k.2.2.2.2.2.2.2.1.trans h.2.2.2.2.2.2.2.1, k.2.2.2.2.2.2.2.2.trans h.2.2.2.2.2.2.2.2⟩

theorem SameBase.records {s t : State} (h : SameBase s t) : SameRecords s t :=
  ⟨h.1, h.2.1, by rw [h.2.2.1], h.2.2.2.1, h.2.2.2.2.1, h.2.2.2.2.2⟩

theorem offer_records (p : Payload) (s : State) : SameRecords s (offer p s) := (offer_base p s).records
theorem loseFrame_records (p : Payload) (s : State) : SameRecords s (loseFrame p s) := (loseFrame_base p s).records
theorem abortOwn_records (b : Ballot) (reason : AbortReason) (refuser : StationNo) (s : State) :
    SameRecords s (abortOwn b reason refuser s) := (abortOwn_base b reason refuser s).records

theorem enterIdle_records (s : State) : SameRecords s (enterIdle s) := SameRecords.refl s
theorem enterListen_records (keep : Bool) (s : State) : SameRecords s (enterListen keep s) := SameRecords.refl s
theorem endLeaving_records (s : State) : SameRecords s (endLeaving s) := by simp [SameRecords]

/-- An offer whose losses have no consequence leaves all but the queue, the Bus Interface and the Monitor. -/
theorem offerQuietly_keeps (p : Payload) (s : State) :
    let t := offerWith (fun _ u => u) p s
    SameRecords s t ∧ t.membership = s.membership ∧ t.timer = s.timer ∧ t.orders = s.orders ∧ t.carrier = s.carrier := by
  unfold offerWith
  dsimp only
  split
  · split <;> simp [SameRecords]
  · split
    · simp [SameRecords]
    · split
      · split
        · simp [SameRecords]
        · split <;> simp [SameRecords]
      · simp [SameRecords]

/-- Step 3 of a withdrawal empties the Order Engine and touches no unit but the queue, the Bus Interface and the
Monitor. -/
theorem abandonOrders_keeps (s : State) :
    SameRecords s (abandonOrders s) ∧ (abandonOrders s).membership = s.membership ∧
      (abandonOrders s).timer = s.timer ∧ (abandonOrders s).carrier = s.carrier ∧
      (abandonOrders s).orders = ordersCleared s.orders := by
  have offered : ∀ (l : List Ballot) (t : State),
      (SameRecords s t ∧ t.membership = s.membership ∧ t.timer = s.timer ∧ t.carrier = s.carrier ∧ t.orders = s.orders) →
      let u := l.foldl (fun t b => offerWith (fun _ u => u) (.abort b.seq b.target .originLeaving (ownNumber s)) t) t
      SameRecords s u ∧ u.membership = s.membership ∧ u.timer = s.timer ∧ u.carrier = s.carrier ∧ u.orders = s.orders := by
    intro l
    induction l with
    | nil => exact fun t h => h
    | cons b l ih =>
      intro t h
      apply ih
      obtain ⟨h1, h2, h3, h4, h5⟩ := offerQuietly_keeps (.abort b.seq b.target .originLeaving (ownNumber s)) t
      exact ⟨h.1.trans h1, h2.trans h.2.1, h3.trans h.2.2.1, h5.trans h.2.2.2.1, h4.trans h.2.2.2.2⟩
  have posted : ∀ (l : List Ballot) (t : State),
      (SameRecords s t ∧ t.membership = s.membership ∧ t.timer = s.timer ∧ t.carrier = s.carrier ∧ t.orders = s.orders) →
      let u := l.foldl (fun t b => post (.orderAborted (ownNumber s) (ownId s b.seq) .originLeaving) t) t
      SameRecords s u ∧ u.membership = s.membership ∧ u.timer = s.timer ∧ u.carrier = s.carrier ∧ u.orders = s.orders := by
    intro l
    induction l with
    | nil => exact fun t h => h
    | cons b l ih => intro t h; exact ih _ h
  obtain ⟨h1, h2, h3, h4, h5⟩ := posted ((openBallots s).filter fun b => !commitOnBus s b.seq b.target) _
    (offered ((openBallots s).filter fun b => !commitOnBus s b.seq b.target) s ⟨SameRecords.refl s, rfl, rfl, rfl, rfl⟩)
  refine ⟨⟨h1.1, h1.2.1, h1.2.2.1, h1.2.2.2.1, h1.2.2.2.2.1, ?_⟩, h2, h3, h4, ?_⟩
  · exact h1.2.2.2.2.2
  · unfold abandonOrders; dsimp only; rw [h5]

/-- A withdrawal keeps the profile, the response, the tone table, the sequence counter and the waiting commands. -/
theorem withdraw_records (cause : Cause) (s : State) : SameRecords s (withdraw cause s) := by
  unfold withdraw
  split
  · dsimp only
    have purged : ∀ d, SameRecords s
        (purgeForLeaving (abandonOrders (enterLeaving cause d (withdrawNotice cause s)))) := fun d =>
      have h := (abandonOrders_keeps (enterLeaving cause d (withdrawNotice cause s))).1
      SameRecords.trans ⟨rfl, rfl, rfl, rfl, rfl, rfl, rfl, rfl, rfl⟩
        (SameRecords.trans h ⟨rfl, rfl, rfl, rfl, rfl, rfl, rfl, rfl, rfl⟩)
    split
    · exact (purged _).trans (endLeaving_records _)
    · exact (purged _).trans (offer_records _ _)
  · exact SameRecords.refl s

theorem withdrawIf_records (asked : Bool) (s : State) : SameRecords s (withdrawIf asked s) := by
  unfold withdrawIf; split
  · exact withdraw_records _ _
  · exact SameRecords.refl s

/-- A return to LISTEN keeps the same records. -/
theorem alignFailed_records (why : AlignFailure) (s : State) : SameRecords s (alignFailed why s) := by
  unfold alignFailed; split <;> exact ⟨rfl, rfl, rfl, rfl, rfl, rfl, rfl, rfl, rfl⟩

/-- A lost elector keeps the fields that no loss touches. -/
theorem loseElector_base (n : StationNo) (s : State) : SameBase s (loseElector n s) :=
  loseElector_keeps (SameBase.keptByLosses s) (fun _ _ h => by simpa [SameBase, updateBallot] using h) n s
    ⟨rfl, rfl, rfl, rfl, rfl, rfl, rfl, rfl, rfl⟩

theorem loseElector_station (n : StationNo) (s : State) (h : s.membership.leaving = none) :
    (loseElector n s).timer = s.timer ∧ (loseElector n s).membership = s.membership := by
  have := loseElector_keeps (SameStation.keptByLosses s) (fun _ _ h => by simpa [SameStation] using h) n s ⟨rfl, rfl, h⟩
  exact ⟨this.1, this.2.1⟩

theorem losePeer_records (n : StationNo) (how : PeerLoss) (s : State) : SameRecords s (losePeer n how s) := by
  unfold losePeer
  refine SameRecords.trans ?_ (loseElector_base n _).records
  split <;> simp [SameRecords]

/-- The loss of a peer changes its Roster entry and no other, outside LEAVING. -/
theorem losePeer_roster (n : StationNo) (how : PeerLoss) (s : State) (h : s.membership.leaving = none) (m : StationNo) :
    rosterEntry (losePeer n how s) m =
      if m = n ∧ n ≠ ownNumber s then RosterEntry.absent else rosterEntry s m := by
  unfold losePeer
  dsimp only
  rw [rosterEntry_congr (loseElector_station n _ (by split <;> simp [h])).2]
  split <;> [rw [rosterEntry_congr (post_membership ..)]; skip] <;> exact rosterEntry_setRoster n m _ s

end Sys2Proof.Machine
end

