-- ==== Sys2Proof/Laws/Clock.lean ====
section
/-! SUPPORT. What a reference clock, a reset and a request can do, said once, and the transaction of the local port at each of
its clocks. -/

namespace Sys2Proof.Machine

/-- A clock of a station that runs leaves everything but its counts and pins as it is. -/
theorem tick_keeps (s : State) :
    (tick s).profile = s.profile ∧ (tick s).response = s.response ∧ (tick s).orders = s.orders ∧ (tick s).queue = s.queue ∧
      (tick s).monitor = s.monitor ∧ (tick s).pending = s.pending ∧ (tick s).clock = s.clock + 1 :=
  ⟨rfl, rfl, rfl, rfl, rfl, rfl, rfl⟩

/-- A reference clock is a reset, a clock of a station that runs, or such a clock with the withdrawal of a failed frame. -/
theorem execCarrierSample_cases (s : State) :
    ((pinsNow s).rstn = .low ∧ execCarrierSample s =
      .next (inReset .low (portInReset (pinsNow s).lsel (pinsNow s).lclk) { s with inputs := s.inputs.tail })) ∨
    ((pinsNow s).rstn = .high ∧ execCarrierSample s = .next (tick s)) ∨
    ((pinsNow s).rstn = .high ∧ s.bus.withdrawAsked = true ∧ execCarrierSample s = .next (withdraw .tally (tick s))) := by
  unfold execCarrierSample withdrawIf
  cases h : (pinsNow s).rstn
  · exact .inl ⟨rfl, rfl⟩
  · by_cases w : (slotEnds s && s.bus.withdrawAsked && spoilSlotRead s) = true
    · exact .inr (.inr ⟨rfl, by simp_all, by simp [w]⟩)
    · exact .inr (.inl ⟨rfl, by simp [w]⟩)

/-- A request answers its effect if it is taken, and the same state otherwise. -/
theorem taking_cases (c : Instr) (s t : State) :
    (takesRequest c s = true ∧ taking c s t = t) ∨ (takesRequest c s = false ∧ taking c s t = s) := by
  unfold taking; cases takesRequest c s <;> simp

@[simp] theorem taking_of {c : Instr} {s : State} (t : State) (h : takesRequest c s = true) : taking c s t = t := by
  simp [taking, h]

theorem takesRequest_iff (c : Instr) (s : State) :
    takesRequest c s = true ↔ s.resetPin = .high ∧ s.localPort.arrived.all (fun i => i == c) = true := by
  simp [takesRequest]

/-- A property that a request's effect keeps is kept whether or not the request is taken. -/
theorem taking_keeps {P : State → Prop} (c : Instr) {s t : State} (hs : P s) (ht : P t) : P (taking c s t) := by
  unfold taking; split <;> assumption

/-! ### The Bus Interface over one clock -/

theorem clockBus_idle (s : State) (h : s.membership.state = .idle) : clockBus s = s.bus := by
  simp [clockBus, slotEnds, h]

theorem clockBus_inside (s : State) (h : slotEnds s = false) (hi : s.membership.state ≠ .idle) :
    clockBus s = { s.bus with slotTimer := s.bus.slotTimer + 1 } := by
  simp [clockBus, h, hi]

theorem clockBus_edge (s : State) (h : slotEnds s = true) : clockBus s = busAtEdge s := by simp [clockBus, h]

@[simp] theorem busAtEdge_sending (s : State) : (busAtEdge s).sending = s.bus.sending := by
  unfold busAtEdge; dsimp only; split <;> rfl
@[simp] theorem busAtEdge_attempts (s : State) : (busAtEdge s).attempts = s.bus.attempts := by
  unfold busAtEdge; dsimp only; split <;> rfl
@[simp] theorem busAtEdge_attemptsFor (s : State) : (busAtEdge s).attemptsFor = s.bus.attemptsFor := by
  unfold busAtEdge; dsimp only; split <;> rfl
@[simp] theorem busAtEdge_slotTimer (s : State) : (busAtEdge s).slotTimer = 0 := by
  unfold busAtEdge; dsimp only; split <;> rfl
@[simp] theorem busAtEdge_drive (s : State) : (busAtEdge s).drive = driveAtEdge s := by
  unfold busAtEdge; dsimp only; split <;> rfl

/-! ### The frame being read and its outcome -/

/-- Once the outcome of a frame has come, what is still being read of it has its outcome. -/
theorem frameEnds_settled (s : State) (r : Reading) (h : (frameEnds s).bus.reading = some r) : r.settled = true := by
  unfold frameEnds at h
  split at h
  · obtain ⟨x, -, rfl⟩ := Option.map_eq_some_iff.mp h
    rfl
  · cases h

/-- A frame whose outcome has been taken is not accepted. -/
theorem canAccept_settled {s : State} {r : Reading} (h : s.bus.reading = some r) (settled : r.settled = true)
    (n : StationNo) (p : Payload) : canAccept s n p = false := by
  simp [canAccept, readingAgrees, h, settled]

/-- A frame whose outcome has been taken does not fail. -/
theorem canFail_settled {s : State} {r : Reading} (h : s.bus.reading = some r) (settled : r.settled = true) :
    canFail s = false := by
  simp [canFail, frameSettled, h, settled]

/-! ### The local port over one clock -/

/-- A bit of a running transaction: a low and then a high level of LCLK shift in LDI at the rise. -/
theorem clockPort_bit (p : LocalPort) (data : Level) (h : p.transaction = .running) (hl : p.lclk = .low) :
    clockPort ⟨.high, .low, .high, data⟩ (clockPort ⟨.high, .low, .low, data⟩ p) =
      { p with high := 0, lclk := .high, shifted := p.shifted ++ [data == .high], arrived := none } := by
  simp [clockPort, clockTransaction, clockBit, h, hl]

/-- A second clock with LSEL high ends a running transaction, and its request arrives. -/
theorem clockPort_end (p : LocalPort) (pins : Pins) (h : p.transaction = .running) (hh : p.high ≠ 0)
    (hp : pins.lsel = .high) :
    clockPort pins p = { LocalPort.closed with
      lclk := pins.lclk, arrived := transactionCommand (shiftedBytes p.shifted) } := by
  simp [clockPort, clockTransaction, h, hh, hp]

/-- A single clock with LSEL high changes nothing in a running transaction but its count. -/
theorem clockPort_gap (p : LocalPort) (pins : Pins) (h : p.transaction = .running) (hh : p.high = 0)
    (hp : pins.lsel = .high) : clockPort pins p = { p with high := 1, lclk := pins.lclk, arrived := none } := by
  simp [clockPort, clockTransaction, h, hh, hp]

end Sys2Proof.Machine
end

