-- ==== Sys2Proof/Tests/Slice0.lean ====
section
/-! SUPPORT. Tests: ill-formed commands refused, requests read from their bytes, frames and check values, worked examples of
the manual, at most two one-step tests for a command, and for every statement with hypotheses a state and operands that
meet them, clause by clause. -/

namespace Sys2Proof.Tests

open Sys2Proof Sys2Proof.Machine

set_option Elab.async false

/-! ### States the tests start from -/

/-- The state a command answers. -/
def after (s : State) (c : Instr) : State :=
  match exec c s with
  | .next t => t
  | .fault _ => s
  | .refused _ => s

/-- The state after a few commands. -/
def run (cs : List Instr) (s : State) : State := cs.foldl after s

/-- Station 4 of group 1, in IDLE, with L = 256, M = 4, C = 2 and tone entries 0 and 5. -/
def idle : State :=
  run [.loadParameter 1 8, .loadParameter 2 2, .loadParameter 3 2, .loadParameter 9 4, .loadParameter 10 1,
    .loadTone 0 1000 2 100, .loadTone 5 85899346 16384 4095] State.reset

/-- The digest of that profile. -/
def digest : Digest := digestOf idle.profile

/-- The state with the timers of every span at their end. -/
def atSpanEnd (s : State) : State :=
  { s with membership := { s.membership with
      listenTimer := listenSpan s.profile, alignTimer := listenSpan s.profile, repeatTimer := listenSpan s.profile
      slowTimer := 8 * listenSpan s.profile } }
/-- The state on an idle bus at a slot edge, and after its own START there. -/
def onIdleBus (s : State) : State := { s with bus := { s.bus with idleCount := 6, slotTimer := 0 } }
def sends (s : State) : State := after (onIdleBus s) .attemptStart
/-- The state at the reading clock of a slot that has not been read, and at the last clock of a slot. -/
def atReading (s : State) : State := { s with bus := { s.bus with slotTimer := 8, slotRead := false } }
def atSlotEnd (s : State) : State := { s with bus := { s.bus with slotTimer := 15, slotRead := true } }
/-- The state while `slots` have been read of a frame whose START fell at clock 5. -/
def reads (slots : List Bool) (s : State) : State := { s with bus := { s.bus with reading := some ⟨5, none, slots, false⟩ } }

def listening : State := run [.start] idle
/-- A FORMING station that waits for three. -/
def forming : State := run [.listenSpanEnd] (atSpanEnd (run [.loadParameter 4 3, .start] idle))
/-- A MEMBER alone in epoch 0. -/
def alone : State := run [.listenSpanEnd, .formationRise] (atSpanEnd listening)
/-- With stations 9 and 15 as members. -/
def cohort : State := run [.helloAccepted 9 .member 1 digest, .helloAccepted 15 .member 2 digest] alone
/-- An own order, sequence 1, for epoch 30. -/
def proposed : State := run [.submit 30 2 5 1] cohort
def proposing : State := sends proposed
def collecting : State := run [.frameTransmitted] proposing
def committing : State := run [.voteAccepted 9 4 1 .accept, .voteAccepted 15 4 1 .accept] collecting
def sendingCommit : State := sends committing
def ready : State := run [.frameTransmitted] sendingCommit
/-- An order of station 9, sequence 7, for epoch 40. -/
def observed : State := run [.proposeAccepted 9 7 40 2 5 .restart] cohort
def leaving : State := run [.stop] cohort
def sendingLeave : State := sends leaving
def aligning : State := run [.epochAccepted 9 40 50 digest] listening
/-- ALIGNING with an order for 52 recorded and a pulse that fell at clock 10, at clock 138. -/
def pulsed : State := { run [.proposeAccepted 9 7 52 2 5 .restart, .chFall] { aligning with clock := 10 } with clock := 138 }
def arriving : State := run [.alignmentPulseEnd] pulsed

/-- A state at a phase of an epoch, with no named point of it taken; at the last phase the boundary is due. -/
def inEpoch (counter : Epoch) (phase : Nat) (s : State) : State :=
  { s with timer := { s.timer with grid := some ⟨counter, phase, 0, phase == 255⟩ } }

/-! ### Well-formed commands, requests, frames -/

theorem test_propose_needs_a_group : (Instr.proposeAccepted 3 1 20 0 0 .restart).WellFormed = false := by decide
theorem test_abort_frame_never_carries_unsent : (Instr.abortAccepted 3 1 20 .unsent 3).WellFormed = false := by decide
theorem test_bad_request_code_zero_is_a_read : (Instr.badRequest 0).WellFormed = false := by decide
theorem test_propose_with_a_group_is_well_formed : (Instr.proposeAccepted 3 1 20 1 0 .restart).WellFormed = true := by
  decide

/-- Section 11.2: SUBMIT takes target, mask, tone index and mode, most significant byte first. -/
theorem test_request_bytes_of_submit :
    transactionCommand [0x07, 0x03, 0xFC, 0x08, 0x0C, 0x01] = some (.submit 1020 8 12 1) := by decide
theorem test_request_with_a_missing_byte_is_bad :
    transactionCommand [0x07, 0x03, 0xFC, 0x08, 0x0C] = some (.badRequest 7) := by decide
theorem test_read_transaction_is_no_command : transactionCommand [0x00] = none := by decide
theorem test_no_table_word_spells_a_command : decodeTableWord 16 5 = none := by decide

/-- R138: the check register over the bytes of the text "123456789", as every description of this generator with the start
value FFFFh and no final inversion gives it. -/
theorem test_check_value_of_the_nine_digits :
    checkValue ([0x31, 0x32, 0x33, 0x34, 0x35, 0x36, 0x37, 0x38, 0x39].flatMap (bitsOf 8)) = 0x29B1 := by decide +kernel

/-- R141, the three contenders: KIND and STATION of station 3's VOTE, and that a VOTE goes before an EPOCH. -/
theorem test_vote_of_station_3_begins_with_its_arbitration_field :
    (frameSlots 3 (.vote 4 17 .accept)).take 9 = [false, false, true, true, false, false, false, true, true] := by
  decide +kernel
theorem test_contender_9_loses_to_station_3 :
    readBack (frameSlots 9 (.vote 4 17 .accept)) ((frameSlots 3 (.vote 4 17 .accept)).take 9) = .lost := by decide +kernel
/-- R137: STARTs are 40 + 8n slots apart; with 6 recessive slots and the spoil and END slots that leaves 29 + 8n. -/
theorem test_commit_has_53_slots_through_check : (frameSlots 8 (.commit 40 900)).length = 53 := by decide +kernel

/-! ### Worked examples of the manual -/

/-- 00_scope, Epoch Arithmetic. -/
theorem test_epoch_4_is_ahead_of_65530 : aheadOf 65530 4 = true ∧ aheadOf 65530 65529 = false := by decide

/-- R5: the counter holds 254, and own orders 255 and 0 are live; the next SUBMIT takes 1. -/
theorem test_sequence_skips_live_orders :
    nextSequence { cohort with orders := { cohort.orders with
      sequence := 254
      schedule := (cohort.orders.schedule.putFirstFree ⟨⟨4, 255⟩, 50, 1, 0, .restart, .ready, .none, false, false⟩).putFirstFree
        ⟨⟨4, 0⟩, 51, 1, 0, .restart, .ready, .none, false, false⟩ } } = 1 := by decide +kernel

/-- R74: samples at P = 2048 and P = 12288 for amplitudes 4095 and 1000. -/
theorem test_samples_of_the_table :
    sampleOf (BitVec.ofNat 32 (2048 * 2 ^ 18)) 4095 = 23165 ∧ sampleOf (BitVec.ofNat 32 (12288 * 2 ^ 18)) 1000 = -8000 := by
  decide +kernel

/-- Section 4.3: entry 5 with RESTART starts at P = 4096 with the sample 32760 and goes on at P = 4423. -/
theorem test_restart_of_entry_5 :
    let c := takeTone 5 .restart true idle.carrier
    c.accumulator = 1073741824 ∧ sampleOf c.accumulator c.amplitude = 32760 ∧
      phaseIndex (c.accumulator + c.frequency) = 4423 := by decide +kernel

/-- Section 2.4, the mark cycle at station 3: pull 3 clocks after the fall, rise 2 clocks after the release. -/
theorem test_mark_cycle_of_station_3 :
    let pulled := after { cohort with
      profile := { cohort.profile with epochExp := 12, markExp := 6 }, clock := 100,
      timer := { cohort.timer with grid := some ⟨1215, 4095, 0, true⟩, leadFall := some 97 } } (.epochBoundary .low)
    let released := after { pulled with
      clock := 2148, timer := { pulled.timer with grid := some ⟨1216, 2048, 0, false⟩ } } (.markRelease .low)
    let risen := after { released with clock := 2150 } .markLagRise
    risen.timer.provisional = some ⟨1216, 3, some 2148, some 2⟩ := by decide +kernel

/-- R50: a pulse of 2053 clocks after EPOCH(1216) sets the counter to 1280 and the phase to 2053. -/
theorem test_alignment_on_1280 :
    let s := { aligning with
      profile := { aligning.profile with epochExp := 12, markExp := 6 }, clock := 2153
      timer := { aligning.timer with reference := some ⟨1216, 50⟩, pulseFall := some 100 } }
    (after s .alignmentPulseEnd).timer.grid = some ⟨1280, 2053, 0, false⟩ := by decide +kernel

/-- Section 1.7: the accepted votes of 2 and 11 leave the ballot open until station 7 is lost, which queues COMMIT. -/
theorem test_ballot_completes_by_the_loss_of_an_elector :
    let b : Ballot := ⟨17, 1020, 0x884, 0x804, .collecting⟩
    let s := { cohort with orders := { cohort.orders with ballots := cohort.orders.ballots.putFirstFree b } }
    openBallots (losePeer 7 .silent s) = [⟨17, 1020, 0x804, 0x804, .committing⟩] ∧
      (losePeer 7 .silent s).queue.entries.map (fun e => e.payload) = [.commit 17 1020] := by decide +kernel

/-- Section 6.5: with rejoin limit 4, the fourth withdrawal on a tally goes to IDLE. -/
theorem test_fourth_withdrawal_ends_in_idle :
    (withdraw .tally { cohort with membership := { cohort.membership with withdrawals := 3 } }).membership.leaving =
      some ⟨.member, .tally, .idle⟩ ∧
    (withdraw .tally { cohort with membership := { cohort.membership with withdrawals := 2 } }).membership.leaving =
      some ⟨.member, .tally, .listen⟩ := by decide +kernel

/-- Section 6.7: what is left in the queue when station 4 withdraws with two open ballots. -/
theorem test_withdrawal_with_open_ballots :
    let s := { cohort with
      orders := { cohort.orders with ballots := (cohort.orders.ballots.putFirstFree
        ⟨20, 1100, 0x8200, 0x8000, .collecting⟩).putFirstFree ⟨21, 1104, 0x8200, 0x8200, .committing⟩ }
      queue := ⟨[⟨0, 0, .epoch 1088 1110 digest⟩, ⟨1, 1, .commit 21 1104⟩, ⟨2, 2, .vote 9 3 .accept⟩,
        ⟨3, 3, .hello .member 1 digest⟩], 4⟩
      bus := { cohort.bus with sending := some ⟨0, .epoch 1088 1110 digest, false, false, false⟩ } }
    (withdraw .tally s).queue.entries.map (fun e => e.payload) =
      [.epoch 1088 1110 digest, .abort 20 1100 .originLeaving 4, .abort 21 1104 .originLeaving 4, .leave .tally] := by
  decide +kernel

/-- Section 9.5: the HELLO, and then the newest PROPOSE, are displaced from the crowded queue. -/
def crowded : List Payload :=
  [.vote 9 4 .accept, .abort 12 50 .timeout 4, .commit 13 51, .vote 2 50 .accept, .vote 5 9 (.refuse .clash),
    .propose 14 52 1 0 .restart, .hello .member 1 0, .vote 3 7 .accept]
theorem test_crowded_queue_displaces_the_hello_then_the_newest_propose :
    let s := { cohort with queue := ⟨(crowded.zipIdx 0).map fun x => ⟨x.2, x.2, x.1⟩, 8⟩ }
    let t := offer (.propose 15 53 1 0 .restart) s
    let u := offer (.vote 6 1 .accept) t
    (t.queue.entries.all fun e => payloadKind e.payload != .hello) ∧ t.queue.entries.length = 8 ∧
      (u.queue.entries.any fun e => e.payload == .propose 14 52 1 0 .restart) ∧
      (u.queue.entries.all fun e => e.payload != .propose 15 53 1 0 .restart) ∧
      (u.queue.entries.any fun e => e.payload == .vote 6 1 .accept) ∧
      (after u (.submit 60 1 0 1)).response = ⟨7, .refused, some .queueFull, []⟩ := by decide +kernel

/-! ### One step of a command -/

theorem test_power_on_reset_forgets_the_tones : (toneAt (after idle .powerOnReset) 5).valid = false := by decide +kernel
theorem test_load_parameter_sets_the_silence_limit :
    (after idle (.loadParameter 6 10)).profile.silenceLimit = 10 := by decide +kernel
theorem test_load_parameter_refuses_an_odd_silence_limit :
    after idle (.loadParameter 6 9) = { idle with response := ⟨1, .badRequest, none, []⟩ } := by decide +kernel
theorem test_load_tone_refuses_a_wide_amplitude :
    (after idle (.loadTone 0 1 1 4096)).response = ⟨2, .badRequest, none, []⟩ := by decide +kernel
theorem test_load_tone_is_busy_outside_idle :
    (after listening (.loadTone 0 1 1 1)).response = ⟨2, .busy, none, []⟩ := by decide +kernel
theorem test_clear_tone_zeroes_the_entry : toneAt (after idle (.clearTone 5)) 5 = ⟨0, 0, 0, false⟩ := by decide +kernel
theorem test_start_needs_the_rest_tone :
    (after (after idle (.clearTone 0)) .start).response = ⟨4, .refused, some .noRestTone, []⟩ := by decide +kernel
theorem test_start_enters_listen : listening.membership.state = .listen := by decide +kernel
theorem test_stop_withdraws_a_member : leaving.membership.leaving = some ⟨.member, .stop, .idle⟩ := by decide +kernel
theorem test_restart_silences_the_carrier :
    (after cohort .restart).membership.state = .idle ∧ (after cohort .restart).carrier.frequency = 0 := by decide +kernel
theorem test_submit_returns_the_sequence : proposed.response = ⟨7, .ok, none, [1]⟩ := by decide +kernel
theorem test_submit_with_lead_c_plus_1_is_late :
    (after cohort (.submit 3 1 0 1)).response = ⟨7, .refused, some .late, []⟩ ∧
      (after cohort (.submit 4 1 0 1)).response = ⟨7, .ok, none, [1]⟩ := by decide +kernel
theorem test_withdraw_aborts_the_order : liveOrders (after collecting (.withdraw 1)) = [] := by decide +kernel
theorem test_withdraw_is_too_late_for_a_ready_order :
    (after ready (.withdraw 1)).response = ⟨8, .refused, some .tooLate, []⟩ := by decide +kernel
theorem test_veto_sets_the_request :
    (liveOrders (after ready (.veto 4 1))).map (fun o => o.vetoRequest) = [true] := by decide +kernel
theorem test_veto_is_too_late_past_the_veto_point :
    (after (inEpoch 29 161 ready) (.veto 4 1)).response = ⟨9, .refused, some .tooLate, []⟩ ∧
      (after (inEpoch 29 160 ready) (.veto 4 1)).response = ⟨9, .ok, none, []⟩ := by decide +kernel
theorem test_read_status_has_27_bytes :
    (after cohort .readStatus).response.fields.length = 27 ∧
      (after cohort .readStatus).response.fields.take 3 = [5, 4, 1] := by decide +kernel
theorem test_read_roster_entry_of_station_9 :
    ((after cohort .readRoster).response.fields.drop 27).take 3 = [2, 1, 0] := by decide +kernel
theorem test_read_order_of_slot_0 :
    (after proposed (.readOrder 0)).response.fields = [4, 1, 0, 30, 2, 5, 1, 0, 0, 0, 0] := by decide +kernel
theorem test_read_ballot_of_slot_0 :
    (after collecting (.readBallot 0)).response.fields = [1, 0, 30, 1, 0, 0, 0x82, 0, 0, 0, 0, 0] := by decide +kernel
theorem test_read_tallies_after_a_failed_frame :
    (after (after cohort .frameFailed) .readTallies).response.fields = [1, 0, 0, 0, 0, 0, 0] := by decide +kernel
theorem test_clear_tallies_clears_the_check_count :
    (after (after cohort .frameFailed) .clearTallies).monitor.tallies = ⟨0, 0, 0, 0, 0, 0⟩ := by decide +kernel
theorem test_take_notice_returns_formed :
    (after cohort .takeNotice).response.fields = [1, 1, 0, 0, 0, 0, 0, 1, 0, 0, 0] := by decide +kernel
theorem test_bad_request_answers : (after cohort (.badRequest 0x33)).response = ⟨0x33, .badRequest, none, []⟩ := by
  decide +kernel
theorem test_carrier_sample_adds_the_frequency_word :
    (after cohort .carrierSample).carrier.accumulator = 2 * 65536 + 1000 ∧
      (after cohort .carrierSample).timer.grid = some ⟨0, 1, 0, false⟩ := by decide +kernel
theorem test_boundary_fires_an_armed_order :
    (after (inEpoch 29 255 (after (inEpoch 29 192 ready) (.vetoSample .high))) (.epochBoundary .high)).carrier.frequency =
      85899346 := by
  decide +kernel
theorem test_boundary_retires_an_order_not_sampled :
    let t := after (inEpoch 29 255 ready) (.epochBoundary .high)
    liveOrders t = [] ∧ t.carrier.frequency = 1000 := by decide +kernel
/-- The middle of a mark epoch, with the claim still held. -/
def atRelease : State := inEpoch 4 128 (after (inEpoch 3 255 cohort) (.epochBoundary .high))
theorem test_mark_release_high_is_a_hold_fault :
    (after atRelease (.markRelease .high)).membership.leaving =
      some ⟨.member, .holdFault, .listen⟩ := by decide +kernel
theorem test_mark_release_offers_epoch :
    ((after atRelease (.markRelease .low)).queue.entries.map
      fun e => payloadKind e.payload) = [.epoch] := by decide +kernel
theorem test_veto_point_claims_for_a_pending_order :
    (after (inEpoch 39 160 observed) .vetoPoint).timer.claims.veto = true := by decide +kernel
theorem test_veto_sample_low_vetoes_the_order :
    liveOrders (after (inEpoch 39 192 observed) (.vetoSample .low)) = [] := by decide +kernel
theorem test_veto_sample_without_order_counts_stray :
    (after (inEpoch 39 192 cohort) (.vetoSample .low)).monitor.tallies.stray = 1 := by decide +kernel
theorem test_veto_release_releases :
    (after (inEpoch 39 224 (after (inEpoch 39 160 observed) .vetoPoint)) .vetoRelease).timer.claims.veto = false := by decide +kernel
theorem test_lag_is_at_most_an_eighth :
    (after { cohort with clock := 500, timer := { cohort.timer with provisional := some ⟨4, 0, some 100, none⟩ } }
      .markLagRise).timer.provisional = some ⟨4, 0, some 100, some 32⟩ := by decide +kernel
theorem test_formation_rise_plays_the_rest_tone :
    outputState alone = .live ∧ alone.carrier.accumulator = 2 * 65536 := by decide +kernel
theorem test_formation_hold_fault_withdraws :
    (after forming .formationHoldFault).membership.leaving = some ⟨.forming, .holdFault, .listen⟩ := by decide +kernel
theorem test_alignment_pulse_end_makes_an_arriving_station :
    arriving.membership.state = .arriving ∧ arriving.timer.grid = some ⟨44, 128, 0, false⟩ := by decide +kernel
theorem test_short_pulse_is_no_mark_pulse :
    (after { pulsed with clock := 100 } .alignmentPulseEnd).membership.state = .aligning := by decide +kernel
theorem test_listen_span_end_forms_alone : forming.timer.claims.formation = true := by decide +kernel
theorem test_alignment_span_end_returns_to_listen :
    (after (atSpanEnd aligning) .alignmentSpanEnd).membership.state = .listen := by decide +kernel
theorem test_hello_forming_repeat_keeps_one_hello :
    (after (atSpanEnd forming) .helloFormingRepeat).queue.entries.length = 1 ∧
      (after (atSpanEnd forming) .helloFormingRepeat).membership.repeatTimer = 0 := by decide +kernel
theorem test_formation_slow_is_posted_once :
    (after (after (atSpanEnd forming) .formationSlow) .formationSlow).monitor.notices.length = 1 := by decide +kernel
theorem test_propose_is_recorded_and_voted_on :
    observed.queue.entries.map (fun e => e.payload) = [.vote 9 7 .accept] := by decide +kernel
theorem test_propose_of_a_stranger_is_refused :
    (after cohort (.proposeAccepted 3 7 40 2 5 .restart)).queue.entries.map (fun e => e.payload) =
      [.vote 3 7 (.refuse .stranger)] := by decide +kernel
theorem test_votes_complete_the_ballot :
    committing.queue.entries.map (fun e => e.payload) = [.commit 1 30] := by decide +kernel
theorem test_refusing_vote_aborts :
    (after collecting (.voteAccepted 9 4 1 (.refuse .late))).queue.entries.map (fun e => e.payload) =
      [.abort 1 30 (.refused .late) 9] := by decide +kernel
theorem test_commit_makes_the_copy_ready :
    (liveOrders (after observed (.commitAccepted 9 7 40))).map (fun o => o.state) = [.ready] := by decide +kernel
theorem test_commit_for_another_target_is_an_orphan :
    (after observed (.commitAccepted 9 7 41)).monitor.notices.getLast?.map (fun n => n.report) =
      some (.orphanCommit ⟨9, 7⟩ 41) := by decide +kernel
theorem test_abort_purges_the_vote :
    (after observed (.abortAccepted 9 7 40 .timeout 9)).queue.entries = [] := by decide +kernel
theorem test_epoch_starts_alignment :
    aligning.timer.reference = some ⟨40, 0⟩ ∧ aligning.membership.blindHorizon = some 50 := by decide +kernel
theorem test_epoch_of_another_mark_disagrees :
    (after cohort (.epochAccepted 9 8 8 digest)).monitor.tallies.disagree = 1 := by decide +kernel
theorem test_hello_arriving_is_answered :
    (after cohort (.helloAccepted 3 .arriving 2 digest)).queue.entries.map (fun e => e.payload) =
      [.hello .member 1 digest] := by decide +kernel
theorem test_hello_forming_joins_the_set :
    formationSize (after forming (.helloAccepted 9 .forming 1 (digestOf forming.profile))).membership.formation = 2 := by
  decide +kernel
theorem test_leave_makes_the_peer_absent :
    rosterEntry (after cohort (.leaveAccepted 9 .stop)) 9 = ⟨.absent, none, 0⟩ := by decide +kernel
theorem test_frame_failed_counts_check : (after cohort .frameFailed).monitor.tallies.check = 1 := by decide +kernel
theorem test_receive_error_ends_alignment :
    (after aligning .receiveError).membership.state = .listen := by decide +kernel
theorem test_attempt_start_takes_the_propose :
    proposing.bus.sending.map (fun a => payloadKind a.payload) = some .propose := by decide +kernel
theorem test_arbitration_lost_keeps_the_frame :
    (after proposing .arbitrationLost).queue = proposed.queue ∧ (after proposing .arbitrationLost).bus.sending = none := by
  decide +kernel
theorem test_mismatch_drives_the_spoil_slot :
    (after proposing (.bitMonitorMismatch false)).bus.spoiling = true := by decide +kernel
theorem test_mismatch_in_start_counts_an_attempt :
    (after proposing (.bitMonitorMismatch true)).bus.attempts = 1 := by decide +kernel
theorem test_frame_transmitted_opens_the_vote :
    (openBallots collecting).map (fun b => (b.state, b.electorate)) = [(.collecting, 0x8200)] := by decide +kernel
theorem test_frame_transmitted_settles_the_order :
    (liveOrders ready).map (fun o => o.state) = [.ready] ∧ openBallots ready = [] := by decide +kernel
theorem test_eighth_spoiled_attempt_drops_the_propose :
    let t := after { proposing with bus := { proposing.bus with attempts := 7 } } .attemptSpoiled
    t.queue.entries = [] ∧ liveOrders t = [] ∧ t.monitor.tallies.drop = 1 := by decide +kernel
theorem test_cd_fall_begins_a_frame : (after cohort .cdFall).bus.reading.isSome = true := by decide +kernel
theorem test_recessive_start_was_a_glitch :
    (after (atReading (after cohort .cdFall)) (.slotReading .high)).bus.reading = none := by decide +kernel
theorem test_dominant_slot_begins_the_idle_count_again :
    (after (atReading (onIdleBus cohort)) (.slotReading .low)).bus.idleCount = 0 := by
  decide +kernel
theorem test_ch_fall_opens_the_pulse : pulsed.timer.pulseFall = some 10 := by decide +kernel
theorem test_spoiled_frame_is_discarded :
    (after (after cohort .cdFall) .spoiledFrame).bus.reading = none := by decide +kernel

/-! ### The reference clock at its ends -/

/-- R29: the phase stops at L − 1 and the boundary is due there. -/
theorem test_boundary_comes_due_after_the_last_phase :
    (after (inEpoch 4 254 cohort) .carrierSample).timer.grid = some ⟨4, 255, 0, false⟩ ∧
      (after { cohort with timer := { cohort.timer with grid := some ⟨4, 255, 224, false⟩ } } .carrierSample).timer.grid =
        some ⟨4, 255, 224, true⟩ ∧
      after { cohort with timer := { cohort.timer with grid := some ⟨4, 255, 224, false⟩ } } (.epochBoundary .high) =
        { cohort with timer := { cohort.timer with grid := some ⟨4, 255, 224, false⟩ } } := by decide +kernel

/-- A LEAVE of station 9 as driven, with one slot of PAYLOAD turned so that its check fails. -/
def badFrame : List Bool := (frameSlots 9 (.leave .stop)).set 20 true
/-- A frame that fails the test, its spoil slot in progress, the failure taken, at the last clock of the spoil slot. -/
def spoiled : State := atSlotEnd (reads (badFrame ++ [false]) (after (reads badFrame { cohort with
  monitor := { cohort.monitor with tallies := ⟨31, 0, 0, 0, 0, 0⟩ } }) .frameFailed))

/-- R145, R163: the spoil slot is driven from its first clock, and the withdrawal comes with the clock that ends it. -/
theorem test_check_withdraws_at_the_end_of_the_spoil_slot :
    pullsData (after (reads badFrame cohort) .frameFailed) = true ∧ spoiled.membership.state = .member ∧
      spoiled.bus.withdrawAsked = true ∧
      (after spoiled .carrierSample).membership.leaving = some ⟨.member, .tally, .listen⟩ := by decide +kernel

/-- R146: drive and CHECK count follow the state at the spoil slot: a station that is LEAVING there does neither, one that is
MEMBER there does both and drives on after a STOP, and neither comes in the last CHECK slot. -/
theorem test_the_state_at_the_spoil_slot_decides :
    let s := reads badFrame cohort
    let stopped := after s .stop
    stopped.membership.state = .leaving ∧ after stopped .frameFailed = stopped ∧ pullsData stopped = false ∧
      (let t := after (after s .frameFailed) .stop
       pullsData t = true ∧ t.monitor.tallies.check = 1) ∧
      after (atSlotEnd s) .frameFailed = atSlotEnd s := by decide +kernel

/-- An own PROPOSE whose slots have been read through its spoil slot, recessive or dominant. -/
def ownPropose (spoil : Bool) : State := reads (frameSlots 4 (.propose 1 30 2 5 .restart) ++ [spoil]) proposing

/-- R147, R148: after its attempt the own frame, of which the END slots are still to be read, is not received; R145: another
station's frame is accepted once. -/
theorem test_own_frame_is_not_received :
    (∀ s ∈ [after (ownPropose true) .frameTransmitted, after (ownPropose false) .attemptSpoiled],
      s.bus.sending = none ∧ s.bus.reading.isSome = true ∧ s.membership.state = .member ∧
        after s (.proposeAccepted 4 1 30 2 5 .restart) = s) ∧
    (let t := after (reads (frameSlots 9 (.propose 7 40 2 5 .restart) ++ [true]) cohort) (.proposeAccepted 9 7 40 2 5 .restart)
     t.queue = observed.queue ∧ after t (.proposeAccepted 9 7 40 2 5 .restart) = t) := by decide +kernel

/-- A PROPOSE and a COMMIT in transmission at their vote close, and a PROPOSE in transmission at a withdrawal. -/
def proposeAcross : State := after (inEpoch 27 255 proposing) (.epochBoundary .high)
def commitAcross : State := after (inEpoch 27 255 sendingCommit) (.epochBoundary .high)
def purgedOnTheBus : State := after proposing .stop

/-- R12, R25: what becomes of the order is the reason of ORDER_ABORTED. -/
theorem test_attempts_across_the_vote_close :
    let reason (c : Instr) (s : State) := (after s c).monitor.notices.getLast?.map fun n => n.report
    reason .attemptSpoiled proposeAcross = some (.orderAborted 4 ⟨4, 1⟩ .unsent) ∧
      reason .attemptSpoiled commitAcross = some (.orderAborted 4 ⟨4, 1⟩ .commitLost) ∧
      reason .frameTransmitted proposeAcross = some (.orderAborted 4 ⟨4, 1⟩ .timeout) ∧
      reason .frameTransmitted commitAcross = some (.orderCommitted ⟨4, 1⟩ 30) := by decide +kernel

/-- R136: a frame is over after its fourth END slot, not at that slot's reading clock. -/
theorem test_frame_ends_after_its_fourth_end_slot :
    let s := after (atReading (reads (frameSlots 9 (.leave .stop) ++ [true, true, true, true]) cohort)) (.slotReading .high)
    (after s .cdFall).bus.reading.isSome = true ∧ after s .cdFall = s ∧
      (after (atSlotEnd s) .carrierSample).bus.reading = none := by decide +kernel

/-- R172, R173: the pins over one transaction of the bytes given, from the fall of LSEL to its rise as seen. -/
def transaction (bytes : List Byte) : List Pins :=
  [⟨.high, .low, .low, .low⟩] ++ (bytes.flatMap fun b => (List.range 8).flatMap fun k =>
    [⟨.high, .low, .low, if b.getMsbD k then .high else .low⟩, ⟨.high, .low, .high, if b.getMsbD k then .high else .low⟩]) ++
  [⟨.high, .high, .low, .low⟩, ⟨.high, .high, .low, .low⟩]
theorem test_transaction_carries_its_request :
    let s := (List.replicate 35 Instr.carrierSample).foldl after { idle with inputs := transaction [0x0C, 3] }
    s.localPort.arrived = some (.readOrder 3) ∧ s.inputs = [] ∧ (after s (.readOrder 3)).response.code = 0x0C ∧
      (after s .readStatus).response = s.response ∧ (after s .carrierSample).localPort.arrived = none := by decide +kernel
/-- R173: the first byte on LDO is the count of the response bytes, here 3. -/
theorem test_read_transaction_puts_out_the_count :
    let s := after idle .start
    ((List.range 8).map fun k => ldoPin { s with localPort := ⟨.running, 0, .low, List.replicate 8 false, k + 1, none⟩ }) =
      [some .low, some .low, some .low, some .low, some .low, some .low, some .high, some .high] := by decide +kernel
theorem test_a_clock_with_rstn_low_resets :
    (after { cohort with inputs := [⟨.low, .high, .low, .low⟩] } .carrierSample).membership.state = .idle ∧
      (after (after { cohort with inputs := [⟨.low, .high, .low, .low⟩] } .carrierSample) .readStatus).response =
        State.reset.response := by decide +kernel

/-- R51: a mark pulse that ended before the START of the frame being read does not count for it, a later one does. -/
theorem test_late_pulse_is_kept_for_the_frame_being_read :
    let s := { reads [] aligning with clock := 300, timer := { aligning.timer with
      reference := some ⟨40, 200⟩, pulseFall := some 172, endedPulse := some 3 } }
    (after s .alignmentPulseEnd).timer.endedPulse = some 172 := by decide +kernel

/-- R121: a HELLO(ARRIVING) with the own number gets no reply. -/
theorem test_own_number_gets_no_reply :
    (runningHello 4 .arriving 1 cohort).queue = cohort.queue ∧
      ((runningHello 9 .arriving 1 cohort).queue.entries.map fun e => e.payload) = [.hello .member 1 digest] := by
  decide +kernel

/-- R176: the lowest and highest value of each range, and the neighbours outside it. -/
theorem test_parameter_ranges :
    ([(1, 8, 16), (2, 2, 10), (3, 2, 64), (4, 1, 32), (5, 8, 255), (6, 4, 32), (7, 0, 63), (8, 2, 8), (9, 0, 31), (10, 0, 7),
      (11, 0, 255), (12, 1, 255), (13, 0, 63), (14, 0, 0x3FFFF), (15, 0, 15)].all fun (id, low, high) =>
        parameterInRange id low && parameterInRange id high && !parameterInRange id (high + 1) &&
          (low == 0 || !parameterInRange id (low - 1))) = true ∧
    parameterInRange 0 0 = false ∧ parameterInRange 16 0 = false := by decide

/-! ### States and operands that meet the hypotheses of the statements -/

theorem witness_StepRunsTheFrontCommand : State.reset.pending = [] := by decide

theorem witness_ProfileAndTonesChangeOnlyInIdle :
    listening.membership.state ≠ .idle ∧ Instr.loadParameter 6 10 ≠ .powerOnReset ∧
      Instr.loadParameter 6 10 ≠ .carrierSample ∧ (after listening (.loadParameter 6 10)).response.status = .busy ∧
      (pinsNow listening).rstn = .high := by decide +kernel

/-- The invariants, and so the hypotheses of every statement about a step, hold in states that hold orders, ballots, frames
and Roster entries, before and after the commands that change them. -/
def invariants (s : State) : Bool :=
  decide (ProfileInRange s) && decide (GridInRange s) && decide (MonitorBounded s) && decide (TimerFollowsState s) &&
  decide (TablesFollowState s) && decide (CarrierFollowsState s) && decide (ScheduleDistinct s) &&
  decide (TargetsAhead s) && decide (BallotsFollowOrders s) && decide (QueueInLimits s) && decide (CountsInRange s)

theorem witness_StepKeepsTheInvariants :
    invariants collecting = true ∧ invariants observed = true ∧ invariants sendingLeave = true ∧
      invariants arriving = true ∧ liveOrders collecting ≠ [] ∧ openBallots collecting ≠ [] := by decide +kernel

theorem witness_FramesReadBack :
    (Payload.propose 1 30 1 63 .continued).WellFormed = true ∧ (Payload.abort 255 65535 .originLeaving 31).WellFormed = true ∧
      frameRead (frameSlots 31 (.abort 255 65535 .originLeaving 31)) = some (31, .abort 255 65535 .originLeaving 31) := by
  decide +kernel

theorem witness_PowerOnResetSetsEveryItem :
    let low (l : Level) : State := { cohort with inputs := [⟨.low, l, .low, .low⟩] }
    (pinsNow (low .low)).rstn = .low ∧ (pinsNow (low .high)).rstn = .low ∧ (pinsNow (low .low)).lsel = .low ∧
      (after (low .high) .powerOnReset).resetPin = .low ∧ (after cohort .powerOnReset).resetPin = .high ∧
      cohort.localPort.transaction = .closed ∧ Instr.readStatus ≠ .powerOnReset ∧ Instr.readStatus ≠ .carrierSample := by
  decide +kernel

/-- A request can be taken in every state the tests start from. -/
theorem witness_takesRequest :
    (∀ c ∈ [Instr.loadParameter 5 7, .loadParameter 5 8, .loadTone 64 1 1 4096, .loadTone 63 1 1 4095, .clearTone 0,
      .clearTone 64, .start, .stop, .restart, .submit 30 1 0 1, .withdraw 1, .veto 9 7, .veto 32 0, .readStatus, .readRoster,
      .readOrder 15, .readBallot 3, .readTallies, .clearTallies, .takeNotice, .badRequest 1],
      ∀ s ∈ [State.reset, idle, listening, forming, aligning, arriving, cohort, leaving, ready, observed, sendingCommit],
        takesRequest c s = true) := by decide +kernel

theorem witness_LoadParameterSetsOneParameter :
    parameterInRange 5 7 = false ∧ parameterInRange 5 8 = true ∧ listening.membership.state ≠ .idle ∧
      idle.membership.state = .idle ∧ parameterValue (after idle (.loadParameter 5 8)).profile 5 = 8 := by decide +kernel

theorem witness_ToneRequestsFollowTheirConditions :
    (63 : Nat) < (64 : Byte).toNat ∧ 4095 < (4096 : BitVec 16).toNat ∧ (63 : Byte).toNat ≤ 63 ∧
      (4095 : BitVec 16).toNat ≤ 4095 ∧ listening.membership.state ≠ .idle ∧ idle.membership.state = .idle ∧
      ((63 : ToneIndex)).val = (63 : Byte).toNat ∧ toneAt idle 63 = ⟨0, 0, 0, false⟩ ∧
      ((0 : ToneIndex)).val = (0 : Byte).toNat ∧ toneAt idle 0 ≠ ⟨0, 0, 0, false⟩ := by decide +kernel

theorem witness_StartEntersListen :
    listening.membership.state ≠ .idle ∧ State.reset.membership.state = .idle ∧ (toneAt State.reset 0).valid = false ∧
      idle.membership.state = .idle ∧ (toneAt idle 0).valid = true := by decide +kernel

theorem witness_StopFollowsTheState :
    idle.membership.state = .idle ∧ listening.membership.state = .listen ∧ aligning.membership.state = .aligning ∧
      forming.membership.state = .forming ∧ arriving.membership.state = .arriving ∧
      cohort.membership.state = .member ∧ leaving.membership.state = .leaving := by decide +kernel

/-- One state and operands for each refusal of R6, in the order of the checks, and one that passes them all. -/
theorem witness_SubmitChecksThenProposes :
    listening.membership.state ≠ .member ∧ cohort.membership.state = .member ∧ cohort.membership.leaving = none ∧
      cohort.timer.grid = some ⟨0, 0, 0, false⟩ ∧
      ([(30, 0, 0, 1), (30, 1, 64, 1), (30, 1, 0, 3), (3, 1, 0, 1), (32768, 1, 0, 1), (30, 2, 63, 1)].map fun
        ((target, mask, tone, mode) : Epoch × Byte × Byte × Byte) =>
          (after cohort (.submit target mask tone mode)).response.reason) =
        [some .badArgument, some .badArgument, some .badArgument, some .late, some .late, some .noTone] ∧
      (after observed (.submit 40 1 0 1)).response.reason = some .clash ∧
      (after (run [.submit 30 1 0 1, .submit 31 1 0 1, .submit 32 1 0 1, .submit 33 1 0 1] cohort)
        (.submit 34 1 0 1)).response.reason = some .ballotsFull ∧
      (after (run ((List.range 16).map fun k => .proposeAccepted 9 (BitVec.ofNat 8 k) (BitVec.ofNat 16 (40 + k)) 1 0
        .restart) cohort) (.submit 30 1 0 1)).response.reason = some .scheduleFull ∧
      (after (run ((List.range 8).map fun k => .proposeAccepted 9 (BitVec.ofNat 8 k) (BitVec.ofNat 16 (40 + k)) 1 0
        .restart) cohort) (.submit 30 1 0 1)).response.reason = some .queueFull ∧
      (after cohort (.submit 4 1 0 1)).response.status = .ok ∧
      (after cohort (.submit 32767 1 0 2)).response.status = .ok := by decide +kernel

theorem witness_WithdrawFollowsItsConditions :
    listening.membership.state ≠ .member ∧
      (sendingCommit.membership.state = .member ∧ (ballotWithSeq sendingCommit 1).any fun b =>
        b.state == .committing && commitOnBus sendingCommit 1 b.target) ∧
      (committing.membership.state = .member ∧ (ballotWithSeq committing 1).any fun b =>
        b.state == .committing && !commitOnBus committing 1 b.target) ∧
      (ready.membership.state = .member ∧ ballotWithSeq ready 1 = none ∧ ∃ o ∈ liveOrders ready, o.id = ownId ready 1) ∧
      (cohort.membership.state = .member ∧ ballotWithSeq cohort 1 = none ∧
        ∀ o ∈ liveOrders cohort, o.id ≠ ownId cohort 1) := by decide +kernel

theorem witness_VetoFollowsItsConditions :
    31 < (32 : Byte).toNat ∧ (31 : StationNo).val = (31 : Byte).toNat ∧
      (listening.membership.state ≠ .arriving ∧ listening.membership.state ≠ .member) ∧
      (observed.membership.state = .member ∧ ∀ o ∈ liveOrders observed, o.id ≠ ⟨9, 8⟩) ∧
      (orderWithId (inEpoch 39 160 observed) ⟨9, 7⟩).isSome = true ∧ epochDistance 39 40 = 1 ∧
      (after (inEpoch 39 160 observed) (.veto 9 7)).response.status = .ok ∧
      (after (after (inEpoch 39 160 observed) .vetoPoint) (.veto 9 7)).response.reason = some .tooLate ∧
      (after (inEpoch 39 161 observed) (.veto 9 7)).response.reason = some .tooLate ∧
      (after (inEpoch 38 255 observed) (.veto 9 7)).response.status = .ok := by decide +kernel

theorem witness_ReadStatusReportsTheStation :
    cohort.timer.grid = some ⟨0, 0, 0, false⟩ ∧ listening.timer.grid = none ∧ listening.timer.lastReading = none ∧
      listening.membership.blindHorizon = none ∧ aligning.membership.blindHorizon = some 50 ∧
      ({ cohort with timer := { cohort.timer with lastReading := some ⟨4, 1, 2⟩ } }).timer.lastReading =
        some ⟨4, 1, 2⟩ := by decide +kernel

theorem witness_ReadRosterReportsEveryEntry : TablesFollowState cohort := by decide +kernel

theorem witness_ReadOrderAndReadBallotReportTheirSlots :
    15 < (16 : Byte).toNat ∧ (15 : Fin 16).val = (15 : Byte).toNat ∧ proposed.orders.schedule.get 15 = none ∧
      (proposed.orders.schedule.get 0).isSome = true ∧ 3 < (4 : Byte).toNat ∧ (3 : Fin 4).val = (3 : Byte).toNat ∧
      proposed.orders.ballots.get 3 = none ∧ (proposed.orders.ballots.get 0).isSome = true := by decide +kernel

theorem witness_TakeNoticeReturnsTheOldest :
    idle.monitor.notices = [] ∧
      (cohort.monitor.notices.head?.map fun n => (n.report, n.epoch)) = some (.formed 1, some 0) ∧
      ((after (atSpanEnd forming) .formationSlow).monitor.notices.head?.map fun n => n.epoch) = some none ∧
      reportStation (.formed 1) = none ∧ reportOrder (.formed 1) = none ∧
      reportStation (.orderAborted 9 ⟨4, 1⟩ .timeout) = some 9 ∧
      reportOrder (.orderAborted 9 ⟨4, 1⟩ .timeout) = some ⟨4, 1⟩ := by
  decide +kernel

theorem witness_BadRequestChangesOnlyTheResponse :
    (1 : Byte) ≠ 0 ∧ takesRequest (.badRequest 1) cohort = true ∧ (0 : Byte) = 0 ∧ isRequest .start = true ∧
      takesRequest .start { idle with localPort := { idle.localPort with arrived := some .readStatus } } = false ∧
      takesRequest .start { idle with resetPin := .low } = false ∧
      (idle.localPort.transaction = .closed ∧ idle.localPort.lclk = .low ∧ [Level.high].length ≤ 1 ∧ [(3 : Byte)] ≠ []) ∧
      ({ LocalPort.closed with transaction := .void }).transaction = .void ∧
      (let s := { idle with localPort := ⟨.running, 0, .low, List.replicate 8 false, 9, none⟩ }
       ldoPin s ≠ none ∧ s.localPort.sent = 8 * 1 + 0 + 1) := by decide +kernel

theorem witness_NoticesAndTalliesAreRecorded :
    idle.profile.noticeMask.getLsbD (reportCode (.formed 1) - 1) = true ∧ idle.monitor.notices.length < 16 ∧
      ({ idle.profile with noticeMask := 0 }).noticeMask.getLsbD (reportCode (.formed 1) - 1) = false ∧
      (16 ≤ (run (List.replicate 16 (.commitAccepted 9 1 1)) cohort).monitor.notices.length) ∧
      cohort.membership.state = .member ∧ tallyOf .check cohort.monitor.tallies < 255 ∧
      tallyOf .check cohort.monitor.tallies + 1 ≠ cohort.profile.threshold ∧
      tallyOf .check ({ cohort.monitor.tallies with check := 31 }) + 1 = cohort.profile.threshold ∧
      ¬ tallyOf .check ({ cohort.monitor.tallies with check := 255 }) < 255 ∧
      listening.membership.state ≠ .forming ∧ TallyKind.drop ≠ .check := by decide +kernel

/-- A MEMBER with the crowded queue of section 9.5 but for the last VOTE, and with it. -/
def queued (n : Nat) : State :=
  { cohort with queue := ⟨((crowded.take n).zipIdx 0).map fun x => ⟨x.2, x.2, x.1⟩, 8⟩ }
def onTheBus (i : Nat) (s : State) : State :=
  { s with bus := { s.bus with sending := (s.queue.entries[i]?).map fun e => ⟨e.ident, e.payload, false, false, false⟩ } }

/-- Seven ABORTs and one other frame in the queue. -/
def crowd (last : Payload) (s : State) : State :=
  { s with queue := ⟨((((List.range 7).map fun k => Payload.abort (BitVec.ofNat 8 (40 + k)) 50 .timeout 4) ++
    [last]).zipIdx 0).map fun x => ⟨x.2, x.2, x.1⟩, 8⟩ }
/-- The last frame of the queue is the waiting one of the highest code, and `p` goes before it. -/
def takesLast (p : Payload) (s : State) : Bool :=
  (s.queue.entries.all fun e => !sameLimit p e.payload) &&
  s.queue.entries.getLast?.any fun v => !inTransmission s v && decide (kindCode (payloadKind p) < kindCode (payloadKind v.payload)) &&
    s.queue.entries.all fun e => decide (e = v) || decide (kindCode (payloadKind e.payload) < kindCode (payloadKind v.payload))

theorem witness_OfferedFramesAreTakenReplacedOrRefused_displaced :
    (QueueInLimits (crowd (.vote 9 7 .accept) observed) ∧
        (crowd (.vote 9 7 .accept) observed).queue.entries.length = 8 ∧
        takesLast (.abort 60 61 .timeout 4) (crowd (.vote 9 7 .accept) observed)) ∧
      (QueueInLimits (crowd (.propose 1 30 2 5 .restart) proposed) ∧
        takesLast (.abort 60 61 .timeout 4) (crowd (.propose 1 30 2 5 .restart) proposed) ∧
        (ballotWithSeq proposed 1).any (fun b => b.state == .awaitingSend && b.target == 30) = true) ∧
      (QueueInLimits (crowd (.commit 1 30) committing) ∧ committing.membership.leaving = none ∧
        takesLast (.abort 60 61 .timeout 4) (crowd (.commit 1 30) committing) ∧ committing.profile.noticeMask.getLsbD 13 ∧
        (ballotWithSeq committing 1).any (fun b => b.state == .committing && b.target == 30) = true) ∧
      (let s := onTheBus 7 (crowd (.propose 1 30 2 5 .restart) proposed)
       QueueInLimits s ∧ s.bus.sending = some ⟨7, .propose 1 30 2 5 .restart, false, false, false⟩ ∧
        ⟨7, 7, .propose 1 30 2 5 .restart⟩ ∈ s.queue.entries) := by decide +kernel

theorem witness_OfferedFramesAreTakenReplacedOrRefused :
    QueueInLimits (queued 8) ∧ (queued 8).membership.leaving = none ∧ QueueInLimits (queued 7) ∧
      ((queued 8).queue.entries.any fun e => sameLimit (.hello .member 1 1) e.payload &&
        !inTransmission (queued 8) e) = true ∧
      ((onTheBus 6 (queued 8)).queue.entries.any fun e => sameLimit (.hello .member 1 1) e.payload &&
        inTransmission (onTheBus 6 (queued 8)) e) = true ∧ QueueInLimits (onTheBus 6 (queued 8)) ∧
      ((∀ e ∈ (queued 7).queue.entries, sameLimit (.commit 15 53) e.payload = false) ∧
        (queued 7).queue.entries.length < 8) ∧
      ((∀ e ∈ (queued 8).queue.entries, sameLimit (.commit 15 53) e.payload = false) ∧
        (queued 8).queue.entries.length = 8 ∧
        (∃ e ∈ (queued 8).queue.entries, kindCode .commit < kindCode (payloadKind e.payload)) ∧
        (∀ e ∈ (queued 8).queue.entries, frameOrderId 4 e.payload ≠ some ⟨4, 15⟩)) ∧
      ((∀ e ∈ (queued 8).queue.entries, sameLimit (.leave .stop) e.payload = false) ∧
        ∀ e ∈ (queued 8).queue.entries, kindCode (payloadKind e.payload) ≤ kindCode .leave) ∧
      (⟨6, 6, .hello .member 1 0⟩ ∈ (queued 8).queue.entries ∧
        inTransmission (queued 8) ⟨6, 6, .hello .member 1 0⟩ = false ∧
        (∀ e ∈ (queued 8).queue.entries, kindCode (payloadKind e.payload) ≤ kindCode .hello) ∧
        ∀ e ∈ (queued 8).queue.entries, payloadKind e.payload = .hello → e.age ≤ 6) := by decide +kernel

theorem witness_AbortEndsAnOwnOrder :
    QueueInLimits committing ∧ committing.membership.leaving = none ∧ AbortReason.withdrawn ≠ .unsent ∧
      committing.queue.entries.length < 8 ∧ (openBallots committing).any (fun b => b.seq == 1) = true ∧
      (let s := crowd (.commit 1 30) committing
       QueueInLimits s ∧ s.queue.entries.length = 8 ∧ ∃ e ∈ s.queue.entries, payloadKind e.payload ≠ .abort) ∧
      (let s := crowd (.abort 47 50 .timeout 4) committing
       QueueInLimits s ∧ s.queue.entries.length = 8 ∧ ∀ e ∈ s.queue.entries, payloadKind e.payload = .abort ∧
        frameOrderId (ownNumber s) e.payload ≠ some (ownId s 1)) ∧
      ({ committing with monitor := { committing.monitor with notices := [] } }).monitor.notices.length = 0 ∧
      committing.profile.noticeMask.getLsbD 13 = true := by decide +kernel

theorem witness_WithdrawalLeavesTheCohort :
    (∀ s ∈ [collecting, forming, arriving], (decide (QueueInLimits s) && decide (TablesFollowState s)) = true) ∧
    collecting.membership.state = .member ∧ forming.membership.state = .forming ∧
    arriving.membership.state = .arriving ∧ collecting.monitor.notices.length ≤ 7 ∧
    collecting.profile.noticeMask.getLsbD 4 = true ∧ collecting.profile.noticeMask.getLsbD 13 = true ∧
    (∃ b ∈ openBallots collecting, commitOnBus collecting b.seq b.target = false) ∧
    (collecting.queue.entries.filter fun e => payloadKind e.payload == .abort).length ≤ 4 := by decide +kernel

theorem witness_AlignFailedReturnsToListen :
    aligning.membership.state = .aligning ∧ arriving.membership.state = .arriving := by decide +kernel

theorem witness_ReferenceClockAdvancesTheCarrier :
    (∀ s ∈ [idle, listening, forming, aligning, cohort, atSlotEnd cohort],
      (pinsNow s).rstn = .high ∧ s.bus.withdrawAsked = false) ∧ idle.membership.state = .idle ∧
      (cohort.membership.state ≠ .idle ∧ cohort.bus.slotTimer + 1 < cohort.profile.slotDivider) ∧
      (cohort.profile.slotDivider ≤ (atSlotEnd cohort).bus.slotTimer + 1) := by decide +kernel

theorem witness_SampleTableValuesAndSymmetries : (5 : BitVec 32).toNat / 2 ^ 18 = (6 : BitVec 32).toNat / 2 ^ 18 := by decide

theorem witness_BoundaryAdvancesTheCounter :
    listening.timer.grid = none ∧ cohort.timer.grid = some ⟨0, 0, 0, false⟩ ∧
      (inEpoch 4 255 observed).timer.grid = some ⟨4, 255, 0, true⟩ ∧
      isMarkEpoch observed.profile 5 = false ∧ openBallots (inEpoch 4 255 observed) = [] ∧
      (∀ o ∈ liveOrders (inEpoch 4 255 observed), o.target ≠ 5) ∧
      ({ (inEpoch 50 255 arriving) with membership := { arriving.membership with blindHorizon := some 50 } }).membership.blindHorizon =
        some 50 ∧ isMarkEpoch arriving.profile 51 = false ∧ openBallots arriving = [] := by decide +kernel

theorem witness_DueOrderFires :
    let armed := inEpoch 29 255 (after (inEpoch 29 192 ready) (.vetoSample .high))
    let marked := inEpoch 39 255 (after (inEpoch 39 192 (after observed (.commitAccepted 9 7 40))) (.vetoSample .high))
    (∀ s ∈ [armed, marked, inEpoch 29 255 ready], gridState s.membership.state = true ∧ ScheduleDistinct s ∧ TablesFollowState s ∧
      openBallots s = []) ∧
    (armed.timer.grid = some ⟨29, 255, 0, true⟩ ∧ ∃ o ∈ liveOrders armed, o.target = 30 ∧ o.armed = true ∧
      inMask o.mask armed.profile.group = true ∧ (toneAt armed o.tone).valid = true ∧ o.mode = .restart) ∧
    isMarkEpoch armed.profile 30 = false ∧ (∃ o ∈ liveOrders ready, o.target = 30 ∧ o.armed = false) ∧
    (marked.timer.grid = some ⟨39, 255, 0, true⟩ ∧ isMarkEpoch marked.profile 40 = true ∧
      ∃ o ∈ liveOrders marked, o.target = 40 ∧ o.armed = true) ∧
    (let beside := { armed with orders := { armed.orders with
      ballots := armed.orders.ballots.putFirstFree ⟨2, 32, 0x8200, 0, .collecting⟩ } }
     (∃ b ∈ openBallots beside, b.target - BitVec.ofNat 16 beside.profile.commitLead = 30) ∧
       ∀ b ∈ openBallots beside, b.seq ≠ 1) ∧
    (∃ o ∈ liveOrders armed, (toneAt { armed with carrier :=
      { armed.carrier with tones := Table.fill 64 ToneEntry.invalid } } o.tone).valid = false) := by decide +kernel

/-- The last clock before the vote close of the order for 30, with M = 8. -/
def voteCloseNext (s : State) : State := inEpoch 27 255 { s with profile := { s.profile with markExp := 3 } }

theorem witness_VoteCloseEndsUnsettledBallots :
    (∀ s ∈ [voteCloseNext collecting, voteCloseNext sendingCommit, voteCloseNext proposing, voteCloseNext proposed],
      (decide (TablesFollowState s) && decide (ScheduleDistinct s) && decide (BallotsFollowOrders s) &&
        decide (QueueInLimits s)) = true ∧ s.timer.grid = some ⟨27, 255, 0, true⟩ ∧ isMarkEpoch s.profile 28 = false ∧
      s.queue.entries.length < 8 ∧
      ((openBallots s).map fun b => b.target - BitVec.ofNat 16 s.profile.commitLead) = [28]) ∧
    ((openBallots (voteCloseNext collecting)).map fun b => b.state) = [.collecting] ∧
    ((openBallots (voteCloseNext proposed)).map fun b => b.state) = [.awaitingSend] ∧
    isMarkEpoch (inEpoch 27 255 collecting).profile 28 = true ∧
    ((openBallots (voteCloseNext sendingCommit)).all fun b => b.state == .committing &&
      commitOnBus (voteCloseNext sendingCommit) b.seq b.target && b.target != 28) = true ∧
    ((openBallots (voteCloseNext proposing)).all fun b => b.state == .awaitingSend &&
      proposeOnBus (voteCloseNext proposing) b.seq b.target) = true := by decide +kernel

theorem witness_MarkBoundaryAtAMember :
    let s := inEpoch 3 255 { cohort with membership := { cohort.membership with
      quiet := 3, memberMarks := 63, roster := cohort.membership.roster.set 9 ⟨.member, some 1, 7⟩ } }
    let a := inEpoch 47 255 arriving
    (s.timer.grid = some ⟨3, 255, 0, true⟩ ∧ s.membership.state = .member ∧ TablesFollowState s ∧
      isMarkEpoch s.profile 4 = true ∧ openBallots s = [] ∧ (∀ o ∈ liveOrders s, o.target ≠ 4) ∧
      s.profile.silenceLimit ≤ (rosterEntry s 9).silence + 1 ∧ s.profile.silenceLimit / 2 ≤ s.membership.quiet + 1 ∧
      s.queue.entries = []) ∧
    (a.timer.grid = some ⟨47, 255, 0, true⟩ ∧ a.membership.state = .arriving ∧ TablesFollowState a ∧
      isMarkEpoch a.profile 48 = true ∧ openBallots a = [] ∧ (∀ o ∈ liveOrders a, o.target ≠ 48)) ∧
    ((appendFrame (.hello .member 1 digest) s).queue.entries.any fun e => payloadKind e.payload == .hello) = true ∧
    ((appendFrame (.epoch 0 0 digest) s).queue.entries.any fun e => isStaleEpoch 4 e.payload) = true := by decide +kernel

theorem witness_MarkReleaseReleasesTheClaim :
    listening.timer.grid = none ∧ cohort.timer.claims.mark = false ∧ atRelease.timer.claims.mark = true ∧
      atRelease.timer.grid = some ⟨4, 128, 0, false⟩ ∧ epochLength atRelease.profile / 2 = 128 ∧
      (inEpoch 4 129 atRelease).timer.claims.mark = true ∧ atRelease.membership.state = .member ∧
      atRelease.bus.sending = none := by decide +kernel

theorem witness_VetoPointClaimsByTheRecord :
    let s := inEpoch 39 160 observed
    takesRequest (.veto 9 7) s = true ∧ s.timer.grid = some ⟨39, 160, 0, false⟩ ∧ 5 * epochLength s.profile / 8 = 160 ∧ ScheduleDistinct s ∧
      (∃ o ∈ liveOrders s, o.target = 40 ∧ o.id.origin.val = (9 : Byte).toNat ∧ o.id.seq = 7) ∧
      s.membership.state = .member := by decide +kernel

theorem witness_VetoSampleDecidesTheNextOrder :
    let s := inEpoch 39 192 observed
    let kept (lead lag : Nat) (claim : Bool) : State := { s with timer := { s.timer with
      claims := ⟨false, false, claim⟩, provisional := some ⟨39, lead, some 5, some lag⟩ } }
    (s.timer.grid = some ⟨39, 192, 0, false⟩ ∧ 3 * epochLength s.profile / 4 = 192 ∧ s.timer.provisional = none ∧
      ScheduleDistinct s ∧ (∃ o ∈ liveOrders s, o.target = 40) ∧ s.timer.claims.veto = false) ∧
    (kept 0 0 true).timer.claims.veto = true ∧ s.membership.state = .member ∧
    (∀ lag ∈ [4, 5], (kept 4 lag false).timer.claims.veto = false ∧ ∃ o ∈ liveOrders (kept 4 lag false), o.target = 40) ∧
    (4 + 4 ≤ (kept 4 4 false).profile.skewWindow ∧ (kept 4 5 false).profile.skewWindow < 4 + 5) ∧
    ((inEpoch 4 192 cohort).membership.state = .member ∧ ∀ o ∈ liveOrders (inEpoch 4 192 cohort), o.target ≠ 5) := by
  decide +kernel

/-- The veto sample of epoch 48 at an ARRIVING station with a mark reading. -/
def arrivingSample (lead lag : Nat) : State := { inEpoch 48 192 arriving with timer :=
  { (inEpoch 48 192 arriving).timer with provisional := some ⟨48, lead, none, some lag⟩ } }

theorem witness_AdmissionOnTheLead_due_and_refused :
    let s := arrivingSample 8 0
    (let due := { s with orders := (after arriving (.proposeAccepted 9 8 49 2 5 .restart)).orders }
     (∃ o ∈ liveOrders due, o.target = 49) ∧ QueueInLimits due ∧ ScheduleDistinct due ∧
      due.timer.claims.veto = false ∧ due.timer.provisional = s.timer.provisional) ∧
    (let sending := sends s
     (∃ e ∈ sending.queue.entries, payloadKind e.payload = .hello ∧ inTransmission sending e = true) ∧
      QueueInLimits sending ∧ sending.timer.provisional = s.timer.provisional) ∧
    (let full := { s with queue := ⟨(List.range 8).map fun i => ⟨i, i, .abort (BitVec.ofNat 8 i) 60 .timeout 4⟩, 8⟩ }
     full.queue.entries.length = 8 ∧ QueueInLimits full ∧
      ∀ e ∈ full.queue.entries, kindCode (payloadKind e.payload) < kindCode .hello) := by decide +kernel

theorem witness_AdmissionOnTheLead :
    let read := arrivingSample
    let s := read 8 0
    (s.timer.grid = some ⟨48, 192, 0, false⟩ ∧ s.membership.state = .arriving ∧ s.membership.leaving = none ∧
      s.timer.claims.veto = false ∧ (∀ o ∈ liveOrders s, o.target ≠ 49) ∧ QueueInLimits s ∧ ScheduleDistinct s ∧
      8 ≤ s.profile.skewWindow ∧ ¬ s.profile.skewWindow < 8 + 0) ∧
    (∃ e ∈ s.queue.entries, payloadKind e.payload = .hello ∧ inTransmission s e = false) ∧
    (let wide := read 8 1
     wide.profile.skewWindow < 8 + 1 ∧ (countTally .skew wide).2 = false ∧
      (after wide (.vetoSample .high)).membership.state = .member ∧
      (after wide (.vetoSample .high)).monitor.tallies.skew = 1) ∧
    (let asking := { read 8 1 with
        profile := { (read 8 1).profile with withdrawMask := 63, threshold := 1 } }
     (countTally .skew asking).2 = true ∧ (after asking (.vetoSample .high)).membership.state = .leaving) ∧
    (s.profile.skewWindow < 9 ∧ tallyOf .skew s.monitor.tallies + 1 ≠ s.profile.threshold ∧
      s.monitor.notices.length < 15 ∧ s.profile.noticeMask = 0x3FFFF) := by decide +kernel

theorem witness_HoldLineEventsAreRecorded :
    (inEpoch 4 224 cohort).timer.grid = some ⟨4, 224, 0, false⟩ ∧ 7 * epochLength cohort.profile / 8 = 224 ∧
      cohort.timer.provisional = none ∧ aligning.membership.state = .aligning ∧
      arriving.membership.state = .arriving ∧ cohort.membership.state = .member ∧
      listening.membership.state ∉ [StationState.aligning, .arriving, .member] ∧
      ({ cohort with timer := { cohort.timer with provisional := some ⟨4, 0, some 7, none⟩ } }).timer.provisional =
        some ⟨4, 0, some 7, none⟩ := by decide +kernel

theorem witness_FormationRiseMakesAMember :
    let released := run [.helloAccepted 9 .forming 1 (digestOf forming.profile),
      .helloAccepted 15 .forming 2 (digestOf forming.profile)] forming
    released.membership.state = .forming ∧ released.timer.claims.formation = false ∧
      forming.membership.state = .forming ∧ forming.timer.claims.formation = true ∧
      cohort.membership.state ≠ .forming := by decide +kernel

theorem witness_AlignmentPulseSetsTheCounter :
    aligning.membership.state = .aligning ∧ aligning.timer.pulseFall = none ∧ pulsed.timer.pulseFall = some 10 ∧
      (100 - 10) + pulsed.profile.skewWindow < epochLength pulsed.profile / 2 ∧
      epochLength pulsed.profile / 2 = pulsed.clock - 10 ∧ pulsed.timer.reference = some ⟨40, 0⟩ ∧
      pulsed.membership.leaving = none ∧ pulsed.queue.entries = [] ∧ liveOrders pulsed ≠ [] ∧
      (let late := { reads [] pulsed with timer := { pulsed.timer with reference := some ⟨40, 200⟩ } }
       (∀ r, late.timer.reference = some r → 10 ≤ r.start) ∧ late.bus.reading = some ⟨5, none, [], false⟩) ∧
      ({ pulsed with timer := { pulsed.timer with reference := none } }).bus.reading = none := by
  refine ⟨by decide +kernel, by decide +kernel, by decide +kernel, by decide +kernel, by decide +kernel, by decide +kernel,
    by decide +kernel, by decide +kernel, by decide +kernel, ⟨?_, by decide +kernel⟩, by decide +kernel⟩
  intro r hr
  cases hr
  decide

theorem witness_SpanEndsActInTheirStates :
    (∀ s ∈ [atSpanEnd listening, atSpanEnd aligning, atSpanEnd forming],
      s.membership.listenTimer = s.profile.listenFactor * 2 ^ s.profile.markExp * 2 ^ s.profile.epochExp ∧
      s.membership.alignTimer = s.membership.listenTimer ∧ s.membership.repeatTimer = s.membership.listenTimer ∧
      s.membership.slowTimer = 8 * s.membership.listenTimer) ∧
    (listening.membership.state = .listen ∧ listening.membership.cohortSeen = false ∧ listening.queue.entries = [] ∧
      listening.membership.listenTimer = 0) ∧
      (after listening (.epochAccepted 9 4 4 0)).membership.cohortSeen = true ∧
      aligning.membership.state = .aligning ∧ (forming.membership.state = .forming ∧
      forming.membership.slowPosted = false) ∧
      (after (atSpanEnd forming) .formationSlow).membership.slowPosted = true := by decide +kernel

theorem witness_AcceptedFramesReachTheirState :
    (Instr.leaveAccepted 9 .stop).acceptedFrame = some (9, .leave .stop) ∧
      canAccept cohort 9 (.leave .stop) = true ∧ canAccept proposing 9 (.leave .stop) = false ∧
      canAccept idle 9 (.leave .stop) = false ∧
      (let read := reads (frameSlots 9 (.leave .stop) ++ [true]) cohort
       canAccept read 9 (.leave .stop) = true ∧ checkRead (slotsRead read) = true ∧
        canAccept (after read (.leaveAccepted 9 .stop)) 9 (.leave .stop) = false) ∧ cohort.bus.reading = none ∧ (9 : StationNo) ≠ ownNumber cohort ∧
      (leaving.membership.state = .leaving ∧ canAccept leaving 9 (.leave .stop) = true) ∧
      (listening.membership.state = .listen ∧ canAccept listening 9 (.commit 1 5) = true) ∧
      (forming.membership.state = .forming ∧ canAccept forming 9 (.commit 1 5) = true) := by decide +kernel

theorem witness_ProposeIsJudgedOrRecorded :
    (∀ s ∈ [cohort, aligning, arriving], canAccept s 9 (.propose 8 60 2 5 .restart) = true ∧
      (9 : StationNo) ≠ ownNumber s ∧ s.membership.leaving = none) ∧
    cohort.timer.grid = some ⟨0, 0, 0, false⟩ ∧ arriving.timer.grid = some ⟨44, 128, 0, false⟩ ∧
    epochDistance 44 45 < 2 ∧ 2 ≤ epochDistance 44 46 ∧ epochDistance 44 60 ≤ 32767 ∧
    (liveOrders arriving).length < 16 ∧ (∀ o ∈ liveOrders arriving, o.id ≠ ⟨9, 8⟩ ∧ o.target ≠ 60) ∧
    (∃ o ∈ liveOrders arriving, o.id = ⟨9, 8⟩ ∨ o.target = 52) := by decide +kernel

theorem witness_VotesSettleTheBallot :
    (∀ s ∈ [proposed, collecting, committing], canAccept s 9 (.vote 4 1 .accept) = true ∧
      s.membership.state = .member ∧ s.membership.leaving = none ∧ (ballotWithSeq s 1).isSome = true) ∧
    ((ballotWithSeq proposed 1).map fun b => b.state) = some .awaitingSend ∧
    ((ballotWithSeq collecting 1).any fun b => b.state == .collecting && inSet b.electorate 9 &&
      !inSet b.electorate 8) = true ∧
    ((ballotWithSeq committing 1).map fun b => b.state) = some .committing ∧ (9 : StationNo) ≠ ownNumber collecting ∧
    ballotWithSeq collecting 2 = none ∧
    inSet ((ballotWithSeq committing 1).elim 0 fun b => b.accepted) 9 = true := by decide +kernel

theorem witness_CommitAndAbortSettleTheOrder :
    let settled := after observed (.commitAccepted 9 7 40)
    (9 : StationNo) ≠ ownNumber observed ∧ recordingState observed.membership.state = true ∧
      canAccept observed 9 (.commit 7 40) = true ∧ canAccept observed 9 (.abort 7 40 .timeout 9) = true ∧
      ((orderWithId observed ⟨9, 7⟩).any fun o => o.target == 40 && o.state == .pending) = true ∧
      ((orderWithId settled ⟨9, 7⟩).any fun o => o.target == 40 && o.state == .ready) = true ∧
      orderWithId observed ⟨9, 8⟩ = none ∧ canAccept settled 9 (.commit 7 40) = true := by decide +kernel

theorem witness_EpochStartsTheAlignment :
    (∀ s ∈ [listening, aligning, cohort], canAccept s 9 (.epoch 4 9 digest) = true ∧ (9 : StationNo) ≠ ownNumber s ∧
      digest = digestOf s.profile ∧ (0 : Digest) ≠ digestOf s.profile) ∧
    canAccept forming 9 (.epoch 4 9 (digestOf forming.profile)) = true ∧ aligning.timer.endedPulse = none ∧
    recordingState aligning.membership.state = true ∧ inSet aligning.membership.runningMismatch 9 = false ∧
    (let s := { aligning with clock := 9, timer := { aligning.timer with endedPulse := some 6 }
                              bus := { aligning.bus with reading := some ⟨5, none, [], false⟩ } }
     canAccept s 9 (.epoch 4 9 digest) = true ∧ s.timer.endedPulse = some 6) := by decide +kernel

theorem witness_EpochIsComparedWithTheGrid :
    canAccept cohort 9 (.epoch 0 9 digest) = true ∧ (9 : StationNo) ≠ ownNumber cohort ∧
      cohort.membership.state = .member ∧ arriving.membership.state = .arriving ∧ digest = digestOf cohort.profile ∧
      cohort.timer.grid = some ⟨0, 0, 0, false⟩ ∧ cohort.bus.reading = none ∧
      (43 : Epoch).toNat - (43 : Epoch).toNat % 2 ^ cohort.profile.markExp = 40 := by decide +kernel

theorem witness_HelloIsTakenByTheState :
    (∀ s ∈ [listening, cohort, arriving, aligning], canAccept s 9 (.hello .forming 1 digest) = true ∧
      (9 : StationNo) ≠ ownNumber s ∧ digest = digestOf s.profile) ∧
    canAccept forming 9 (.hello .forming 1 (digestOf forming.profile)) = true ∧
    (0 : Digest) ≠ digestOf listening.profile ∧ forming.membership.formation.get 9 = none ∧
    forming.membership.formation.get 4 = some 1 ∧ recordingState cohort.membership.state = true ∧
    (rosterEntry cohort 9).presence = .member ∧ (rosterEntry cohort 8).presence = .absent := by decide +kernel

theorem witness_RosterFollowsTheFrames :
    let s := { cohort with orders := { cohort.orders with
      ballots := cohort.orders.ballots.putFirstFree ⟨17, 1020, 0x8200, 0x8000, .collecting⟩ } }
    (9 : StationNo) ≠ ownNumber s ∧ s.membership.leaving = none ∧ openBallots cohort = [] ∧
      openBallots s = [⟨17, 1020, 0x8200, 0x8000, .collecting⟩] ∧
      subset (removeFrom 0x8200 9) (removeFrom 0x8000 9) = true ∧ s.queue.entries.length < 8 ∧
      canAccept s 9 (.leave .stop) = true ∧ recordingState s.membership.state = true ∧
      canAccept forming 9 (.leave .stop) = true := by decide +kernel

theorem witness_DuplicateNumberEndsInIdle :
    (Instr.leaveAccepted 4 .stop).acceptedFrame = some (ownNumber cohort, .leave .stop) ∧
      ∀ s ∈ [listening, cohort, leaving, arriving], canAccept s (ownNumber s) (.leave .stop) = true ∧
        ownNumber s = 4 ∧ TablesFollowState s ∧ TimerFollowsState s ∧ QueueInLimits s ∧
        s.monitor.notices.length < 15 ∧ s.profile.noticeMask.getLsbD 4 = true := by decide +kernel

theorem witness_FailedFramesAreSpoiledOrDiscarded :
    let s := reads badFrame cohort
    cohort.bus.sending = none ∧ cohort.bus.spoiling = false ∧ activeState cohort.membership.state = true ∧
      cohort.bus.reading = none ∧ checkRead badFrame = true ∧ ownTest badFrame = false ∧ spoilRead badFrame = none ∧
      s.bus.reading = some ⟨5, none, badFrame, false⟩ ∧
      (spoilPlace badFrame = some badFrame.length ∧ s.bus.slotTimer = 0) ∧ (atSlotEnd s).bus.slotTimer ≠ 0 ∧
      checkRead (badFrame.take 20) = false ∧ (reads (badFrame.take 20) cohort).bus.spoiling = false ∧
      (takesRequest .stop (after s .frameFailed) = true ∧
        (after (after s .frameFailed) .stop).membership.state = .leaving ∧ (after s .frameFailed).bus.sending = none) ∧
      ((after s .stop).membership.state = .leaving ∧ (after s .stop).bus.sending = none ∧
        (after s .stop).bus.spoiling = false ∧ (after s .stop).bus.reading = s.bus.reading) ∧
      (spoiled.membership.state ≠ .idle ∧ spoiled.profile.slotDivider ≤ spoiled.bus.slotTimer + 1 ∧
        (pinsNow spoiled).rstn = .high ∧ spoiled.bus.withdrawAsked = true ∧ spoilRead (slotsRead spoiled) = some false) ∧
      ((reads badFrame spoiled).bus.withdrawAsked = true ∧ spoilRead (slotsRead (reads badFrame spoiled)) = none) ∧
      ((atSlotEnd s).bus.reading = s.bus.reading ∧ (atSlotEnd s).profile.slotDivider ≤ (atSlotEnd s).bus.slotTimer + 1) ∧
      (let received := after (reads (frameSlots 9 (.leave .stop) ++ [true]) cohort) (.leaveAccepted 9 .stop)
       received.bus.sending = none ∧ (received.bus.reading.any fun r => r.settled) = true) ∧
      listening.membership.state = .listen ∧
      (listening.bus.sending = none ∧ listening.bus.spoiling = false ∧ listening.bus.reading = none) ∧
      (aligning.membership.state = .aligning ∧ aligning.bus.reading = none) ∧ idle.membership.state = .idle ∧
      idle.bus.sending = none := by decide +kernel

theorem witness_AttemptStartTakesTheMostUrgentFrame :
    let s := onIdleBus (queued 8)
    (QueueInLimits s ∧ s.membership.state ≠ .idle ∧ s.bus.sending = none ∧ s.bus.idleCount = 6 ∧ s.bus.reading = none ∧ s.bus.slotTimer = 0 ∧
      ∀ x ∈ s.queue.entries, kindCode .abort < kindCode (payloadKind x.payload) ∨ (payloadKind x.payload = .abort ∧ 1 ≤ x.age)) ∧
    (atSlotEnd s).bus.slotTimer ≠ 0 ∧ (after s .cdFall).bus.reading = some ⟨s.clock, some 0, [], false⟩ ∧
    (reads [] s).bus.reading = some ⟨5, none, [], false⟩ ∧ 5 ≠ s.clock ∧
    proposing.bus.sending ≠ none ∧ cohort.bus.idleCount ≠ 6 ∧ idle.membership.state = .idle ∧ cohort.queue.entries = [] := by
  decide +kernel

theorem witness_UnsuccessfulAttemptsAreCounted :
    (proposing.bus.sending.any fun a => !a.mismatch && !a.displaced && !a.removeAfter && (heardBack proposing a).isNone) =
        true ∧
      (∀ b ∈ openBallots proposing, voteClosed proposing b = false) ∧ proposing.bus.attempts < 7 ∧
      spoilRead (slotsRead proposing) ≠ some true ∧ proposing.bus.reading = some ⟨0, some 0, [], false⟩ ∧
      ((after proposing (.bitMonitorMismatch false)).bus.sending.any fun a => a.mismatch) = true ∧
      (∀ s ∈ [proposeAcross, commitAcross], ((ballotWithSeq s 1).any fun b =>
          b.seq == 1 && b.target == 30 && voteClosed s b && (b.state == .awaitingSend || b.state == .committing)) = true ∧
        (s.bus.sending.any fun a => !a.mismatch && !a.displaced && a.removeAfter && (heardBack s a).isNone) = true ∧
        s.bus.attempts < 7 ∧ spoilRead (slotsRead s) ≠ some true) ∧
      ((ballotWithSeq proposeAcross 1).map fun b => b.state) = some .awaitingSend ∧
      (proposeAcross.bus.sending.map fun a => a.payload) = some (.propose 1 30 2 5 .restart) ∧
      ((ballotWithSeq commitAcross 1).map fun b => b.state) = some .committing ∧
      (commitAcross.bus.sending.map fun a => a.payload) = some (.commit 1 30) ∧
      (let own := ownPropose false
       (own.bus.sending.isSome && checkRead (slotsRead own)) = true ∧ spoilRead (slotsRead own) ≠ some true ∧
        (Instr.proposeAccepted 4 1 30 2 5 .restart).acceptedFrame = some (4, .propose 1 30 2 5 .restart)) ∧
      (openBallots purgedOnTheBus = [] ∧ (purgedOnTheBus.bus.sending.any fun a => a.removeAfter && !a.displaced) = true) ∧
      7 ≤ ({ proposing with bus := { proposing.bus with attempts := 7 } }).bus.attempts ∧
      ({ proposing with bus := { proposing.bus with
        sending := some ⟨0, .leave .stop, true, false, false⟩ } }).bus.sending =
          some ⟨0, .leave .stop, true, false, false⟩ ∧
      ({ proposing with bus := { proposing.bus with reading := none } }).bus.reading = none := by decide +kernel

theorem witness_TransmittedFramesActAtTheProducer :
    (∀ s ∈ [proposing, sendingCommit, sendingLeave], spoilRead (slotsRead s) ≠ some false ∧
      (s.bus.sending.any fun a => !a.mismatch && (heardBack s a).isNone) = true) ∧
    ((ballotWithSeq sendingCommit 1).any fun b => b.state == .committing && b.target == 30) = true ∧
    vetoPointPassed sendingCommit 30 = false ∧ vetoPointPassed (inEpoch 29 160 sendingCommit) 30 = true ∧
    ((ballotWithSeq proposing 1).any fun b => b.state == .awaitingSend && b.target == 30 && !voteClosed proposing b) =
      true ∧ (rosterEntry proposing 9).presence = .member ∧
    (((ballotWithSeq proposeAcross 1).any fun b => b.state == .awaitingSend && b.target == 30 && voteClosed proposeAcross b) =
        true ∧ (proposeAcross.bus.sending.any fun a => !a.mismatch && (heardBack proposeAcross a).isNone) = true ∧
      spoilRead (slotsRead proposeAcross) ≠ some false) ∧
    (∀ s ∈ [after proposing (.withdraw 1), after sendingCommit .stop], ballotWithSeq s 1 = none ∧
      (s.bus.sending.any fun a => !a.mismatch && (heardBack s a).isNone) = true ∧ spoilRead (slotsRead s) ≠ some false) ∧
    ((after proposing (.withdraw 1)).bus.sending.map fun a => a.payload) = some (.propose 1 30 2 5 .restart) ∧
    ((after sendingCommit .stop).bus.sending.map fun a => a.payload) = some (.commit 1 30) ∧
    (let lone := sends (after alone (.submit 30 2 5 1))
     (lone.bus.sending.any fun a => a.payload == .propose 1 30 2 5 .restart) = true ∧
      (∀ n, (rosterEntry lone n).presence ≠ .member) ∧ lone.queue.entries.length < 8) ∧
    ((ownPropose true).bus.sending.any fun a => !a.mismatch && heardBack (ownPropose true) a == some .agrees) = true ∧
    spoilRead (slotsRead (ownPropose true)) = some true ∧ checkRead (slotsRead (ownPropose true)) = true ∧
    sendingLeave.membership.leaving = some ⟨.member, .stop, .idle⟩ ∧
    (sendingLeave.bus.sending.map fun a => a.payload) = some (.leave .stop) := by decide +kernel

theorem witness_SlotsFrameTheBus :
    let s := after cohort .cdFall
    let now (u : State) : Bool := decide (u.bus.slotTimer = u.profile.slotDivider / 2) && !u.bus.slotRead
    let edge (u : State) : Bool := decide (u.profile.slotDivider ≤ u.bus.slotTimer + 1) && (pinsNow u).rstn == .high &&
      !u.bus.withdrawAsked
    let whole := frameSlots 9 (.leave .stop) ++ List.replicate 5 true
    cohort.membership.state ≠ .idle ∧ cohort.bus.reading = none ∧ s.bus.reading = some ⟨0, some 0, [], false⟩ ∧
      now cohort = false ∧ now (atReading cohort) = true ∧ now (atReading s) = true ∧ edge (atSlotEnd cohort) = true ∧
      edge (atSlotEnd s) = true ∧ edge (atSlotEnd (reads whole cohort)) = true ∧
      (13 ≤ whole.length ∧ 34 + 8 * natOf ((whole.drop 9).take 4) = whole.length) ∧
      (proposing.bus.spoiling = false ∧ proposing.bus.sending.any (fun a => !a.mismatch) = true ∧
        edge (atSlotEnd proposing) = true) ∧
      (let m := after proposing (.bitMonitorMismatch false)
       let own := frameSlots 4 (.propose 1 30 2 5 .restart)
       (m.bus.sending.all fun a => a.mismatch) = true ∧ m.bus.spoiling = true ∧ 13 ≤ own.length ∧
        own.length = 29 + 8 * natOf ((own.drop 9).take 4) ∧ edge (atSlotEnd (reads own m)) = true) ∧
      (cohort.bus.sending = none ∧ cohort.bus.spoiling = false ∧ edge (atSlotEnd (reads badFrame cohort)) = true) := by
  decide +kernel

end Sys2Proof.Tests
end

section
/-! The answers of READ_ORDER and READ_BALLOT (R28): the slot check, the bytes of a record, and one equation for each
outcome of the two requests. -/

namespace Sys2Proof.Machine

/-! ### The slot check -/

theorem below_of_le {bound n : Nat} (h : bound ≤ n) : below bound n = none := dif_neg (Nat.not_lt.mpr h)

theorem below_of_val {bound n : Nat} {i : Fin bound} (h : i.val = n) : below bound n = some i := by
  subst h
  exact dif_pos i.isLt

/-! ### The bytes of a record (section 11.2) -/

theorem portBytes_two (n : Nat) : portBytes 2 n = [BitVec.ofNat 8 (n / 256), BitVec.ofNat 8 n] := by
  simp [portBytes, List.range_succ]

theorem portBytes_four (n : Nat) : portBytes 4 n =
    [BitVec.ofNat 8 (n / 16777216), BitVec.ofNat 8 (n / 65536), BitVec.ofNat 8 (n / 256), BitVec.ofNat 8 n] := by
  simp [portBytes, List.range_succ]

theorem flagByte_beq {α : Type} [BEq α] [LawfulBEq α] [DecidableEq α] (a b : α) :
    flagByte (a == b) = if a = b then 1 else 0 := by
  simp [flagByte]

theorem ofNat_phaseModeCode (m : PhaseMode) : BitVec.ofNat 8 (phaseModeCode m) = if m = .restart then 1 else 2 := by
  cases m <;> rfl

theorem orderBytes_eq (o : Order) : orderBytes o =
    [BitVec.ofNat 8 o.id.origin.val, o.id.seq, BitVec.ofNat 8 (o.target.toNat / 256), BitVec.ofNat 8 o.target.toNat,
     o.mask, BitVec.ofNat 8 o.tone.val, if o.mode = .restart then 1 else 2, if o.state = .ready then 1 else 0,
     voteCode o.vote, if o.vetoRequest then 1 else 0, if o.armed then 1 else 0] := by
  rw [orderBytes, portBytes_two, ofNat_phaseModeCode, flagByte_beq]
  rfl

theorem ballotBytes_eq (b : Ballot) : ballotBytes b =
    [b.seq, BitVec.ofNat 8 (b.target.toNat / 256), BitVec.ofNat 8 b.target.toNat, ballotStateCode b.state,
     BitVec.ofNat 8 (b.electorate.toNat / 16777216), BitVec.ofNat 8 (b.electorate.toNat / 65536),
     BitVec.ofNat 8 (b.electorate.toNat / 256), BitVec.ofNat 8 b.electorate.toNat,
     BitVec.ofNat 8 (b.accepted.toNat / 16777216), BitVec.ofNat 8 (b.accepted.toNat / 65536),
     BitVec.ofNat 8 (b.accepted.toNat / 256), BitVec.ofNat 8 b.accepted.toNat] := by
  rw [ballotBytes, portBytes_two, portBytes_four, portBytes_four]
  rfl

/-! ### The outcomes of the two requests -/

section
variable {slot : Byte} {s : State}

theorem exec_readOrder (slot : Byte) (s : State) : exec (.readOrder slot) s = execReadOrder slot s := rfl

theorem exec_readBallot (slot : Byte) (s : State) : exec (.readBallot slot) s = execReadBallot slot s := rfl

theorem exec_readOrder_of_outOfRange (ht : takesRequest (.readOrder slot) s = true) (hslot : 15 < slot.toNat) :
    exec (.readOrder slot) s = .next (respond 0x0C .badRequest [] s) := by
  rw [exec_readOrder, execReadOrder, taking_of _ ht, below_of_le (show 16 ≤ slot.toNat from hslot)]

theorem exec_readOrder_of_free {i : Fin 16} (ht : takesRequest (.readOrder slot) s = true) (hi : i.val = slot.toNat)
    (hfree : s.orders.schedule.get i = none) :
    exec (.readOrder slot) s = .next (respond 0x0C .empty [] s) := by
  rw [exec_readOrder, execReadOrder, taking_of _ ht, below_of_val hi]
  simp only [hfree]

theorem exec_readOrder_of_held {i : Fin 16} {o : Order} (ht : takesRequest (.readOrder slot) s = true)
    (hi : i.val = slot.toNat) (hheld : s.orders.schedule.get i = some o) :
    exec (.readOrder slot) s = .next (respond 0x0C .ok (orderBytes o) s) := by
  rw [exec_readOrder, execReadOrder, taking_of _ ht, below_of_val hi]
  simp only [hheld]

theorem exec_readBallot_of_outOfRange (ht : takesRequest (.readBallot slot) s = true) (hslot : 3 < slot.toNat) :
    exec (.readBallot slot) s = .next (respond 0x0D .badRequest [] s) := by
  rw [exec_readBallot, execReadBallot, taking_of _ ht, below_of_le (show 4 ≤ slot.toNat from hslot)]

theorem exec_readBallot_of_free {i : Fin 4} (ht : takesRequest (.readBallot slot) s = true) (hi : i.val = slot.toNat)
    (hfree : s.orders.ballots.get i = none) :
    exec (.readBallot slot) s = .next (respond 0x0D .empty [] s) := by
  rw [exec_readBallot, execReadBallot, taking_of _ ht, below_of_val hi]
  simp only [hfree]

theorem exec_readBallot_of_held {i : Fin 4} {b : Ballot} (ht : takesRequest (.readBallot slot) s = true)
    (hi : i.val = slot.toNat) (hheld : s.orders.ballots.get i = some b) :
    exec (.readBallot slot) s = .next (respond 0x0D .ok (ballotBytes b) s) := by
  rw [exec_readBallot, execReadBallot, taking_of _ ht, below_of_val hi]
  simp only [hheld]

end

/-- Settles O24: one case for each of a slot out of range, a free slot and a held record; the bytes of a record are those
of section 11.2. -/
theorem readOrderAndReadBallotReportTheirSlots : Obligations.ReadOrderAndReadBallotReportTheirSlots := by
  intro slot s
  refine ⟨fun ht => ⟨?orderOutOfRange, ?orderFree, ?orderHeld⟩, fun ht => ⟨?ballotOutOfRange, ?ballotFree, ?ballotHeld⟩⟩
  case orderOutOfRange => exact exec_readOrder_of_outOfRange ht
  case orderFree => exact fun i => exec_readOrder_of_free ht
  case orderHeld =>
    intro i o hi hheld
    rw [exec_readOrder_of_held ht hi hheld, orderBytes_eq]
    rfl
  case ballotOutOfRange => exact exec_readBallot_of_outOfRange ht
  case ballotFree => exact fun i => exec_readBallot_of_free ht
  case ballotHeld =>
    intro i b hi hheld
    rw [exec_readBallot_of_held ht hi hheld, ballotBytes_eq]
    rfl

end Sys2Proof.Machine
end

section
/-! LOAD_TONE and CLEAR_TONE (R71, R72): a table written with what it holds, the samples of amplitude 0, one equation for
each outcome of the two requests, and START without a rest tone (R88). -/

namespace Sys2Proof

theorem Table.set_get_self {α : Type} {n : Nat} (t : Table α n) (i : Fin n) : t.set i (t.get i) = t := by
  apply Table.ext_get
  intro j
  rw [Table.get_set]
  split
  case isTrue hji => rw [hji]
  case isFalse => rfl

end Sys2Proof

namespace Sys2Proof.Machine

/-! ### The samples of amplitude 0 (R71, R74) -/

theorem scaledMagnitude_zero (sine : Nat) : scaledMagnitude 0 sine = 0 := by
  have half_lt : 2 ^ (sineBits - 1) < 2 ^ sineBits := Nat.pow_lt_pow_right (by decide) (by decide)
  rw [scaledMagnitude, Nat.mul_zero, Nat.zero_mul, Nat.zero_add, Nat.div_eq_of_lt half_lt]

theorem sampleOf_zero_amplitude (accumulator : BitVec 32) : sampleOf accumulator 0 = 0 := by
  unfold sampleOf
  split <;> simp [scaledMagnitude_zero]

/-! ### The outcomes of LOAD_TONE (R71) -/

/-- The state with entry `i` of the tone table written. -/
def writeTone (i : ToneIndex) (e : ToneEntry) (s : State) : State :=
  { s with carrier := { s.carrier with tones := s.carrier.tones.set i e } }

section
variable {index : Byte} {frequency : BitVec 32} {offset amplitude : BitVec 16} {s : State}

theorem exec_loadTone (index : Byte) (frequency : BitVec 32) (offset amplitude : BitVec 16) (s : State) :
    exec (.loadTone index frequency offset amplitude) s = execLoadTone index frequency offset amplitude s := rfl

theorem exec_loadTone_of_outOfRange (ht : takesRequest (.loadTone index frequency offset amplitude) s = true)
    (hrange : 63 < index.toNat ∨ 4095 < amplitude.toNat) :
    exec (.loadTone index frequency offset amplitude) s = .next (respond 0x02 .badRequest [] s) := by
  rw [exec_loadTone, execLoadTone, taking_of _ ht]
  rcases Nat.lt_or_ge 63 index.toNat with hindex | hindex
  · rw [below_of_le (show 64 ≤ index.toNat from hindex)]
  · have hamplitude : 4095 < amplitude.toNat := hrange.resolve_left (Nat.not_lt.mpr hindex)
    rw [below_of_val (i := ⟨index.toNat, Nat.lt_succ_of_le hindex⟩) rfl]
    simp only [if_pos hamplitude]

theorem exec_loadTone_of_inRange {i : ToneIndex} (ht : takesRequest (.loadTone index frequency offset amplitude) s = true)
    (hi : i.val = index.toNat) (hamplitude : amplitude.toNat ≤ 4095) :
    exec (.loadTone index frequency offset amplitude) s = .next (if s.membership.state ≠ .idle then respond 0x02 .busy [] s
      else respond 0x02 .ok [] (writeTone i ⟨frequency, offset, amplitude.setWidth 12, true⟩ s)) := by
  rw [exec_loadTone, execLoadTone, taking_of _ ht, below_of_val hi]
  simp only [if_neg (Nat.not_lt.mpr hamplitude)]
  rfl

end

/-! ### The outcomes of CLEAR_TONE (R72) -/

section
variable {index : Byte} {s : State}

theorem exec_clearTone (index : Byte) (s : State) : exec (.clearTone index) s = execClearTone index s := rfl

theorem exec_clearTone_of_outOfRange (ht : takesRequest (.clearTone index) s = true) (hindex : 63 < index.toNat) :
    exec (.clearTone index) s = .next (respond 0x03 .badRequest [] s) := by
  rw [exec_clearTone, execClearTone, taking_of _ ht, below_of_le (show 64 ≤ index.toNat from hindex)]

theorem exec_clearTone_of_inRange {i : ToneIndex} (ht : takesRequest (.clearTone index) s = true)
    (hi : i.val = index.toNat) :
    exec (.clearTone index) s = .next (if s.membership.state ≠ .idle then respond 0x03 .busy [] s
      else respond 0x03 .ok [] (writeTone i ToneEntry.invalid s)) := by
  rw [exec_clearTone, execClearTone, taking_of _ ht, below_of_val hi]
  rfl

end

/-! ### START without a rest tone (R88) -/

theorem exec_start (s : State) : exec .start s = execStart s := rfl

theorem exec_start_of_noRestTone {s : State} (ht : takesRequest .start s = true) (hidle : s.membership.state = .idle)
    (hrest : (toneAt s 0).valid = false) : exec .start s = .next (refuseRequest 0x04 .noRestTone s) := by
  rw [exec_start, execStart, taking_of _ ht, if_neg (not_not.mpr hidle), if_pos (by rw [hrest]; rfl)]

/-- Settles O15: one case for each row of R71 and each outcome of R72. In IDLE the entry alone is written, and a cleared
entry 0 is the rest tone that START then misses. -/
theorem toneRequestsFollowTheirConditions : Obligations.ToneRequestsFollowTheirConditions := by
  intro index frequency offset amplitude s
  refine ⟨fun ht => ⟨?loadOutOfRange, ?loadBusy, ?loaded⟩, fun ht => ⟨?clearOutOfRange, ?clearBusy, ?cleared⟩⟩
  case loadOutOfRange => exact exec_loadTone_of_outOfRange ht
  case loadBusy =>
    intro hindex hamplitude hbusy
    rw [exec_loadTone_of_inRange (i := ⟨index.toNat, Nat.lt_succ_of_le hindex⟩) ht rfl hamplitude, if_pos hbusy]
    rfl
  case loaded =>
    intro i hi hamplitude hidle
    refine ⟨s.carrier.tones.set i ⟨frequency, offset, amplitude.setWidth 12, true⟩, amplitude.setWidth 12,
      ?response, ?amplitudeKept, Table.get_set_self .., fun j => Table.get_set_other _ _, ?silent⟩
    case response =>
      rw [exec_loadTone_of_inRange ht hi hamplitude, if_neg (not_not.mpr hidle)]
      rfl
    case amplitudeKept => rw [BitVec.toNat_setWidth, Nat.mod_eq_of_lt (Nat.lt_succ_of_le hamplitude)]
    case silent =>
      rintro rfl accumulator
      exact sampleOf_zero_amplitude accumulator
  case clearOutOfRange => exact exec_clearTone_of_outOfRange ht
  case clearBusy =>
    intro hindex hbusy
    rw [exec_clearTone_of_inRange (i := ⟨index.toNat, Nat.lt_succ_of_le hindex⟩) ht rfl, if_pos hbusy]
    rfl
  case cleared =>
    intro i hi hidle
    refine ⟨s.carrier.tones.set i ToneEntry.invalid, ?response, Table.get_set_self .., fun j => Table.get_set_other _ _,
      ?alreadyInvalid, ?startRefused⟩
    case response =>
      rw [exec_clearTone_of_inRange ht hi, if_neg (not_not.mpr hidle)]
      rfl
    case alreadyInvalid =>
      intro hinvalid
      calc s.carrier.tones.set i ToneEntry.invalid
        _ = s.carrier.tones.set i (toneAt s i) := by rw [hinvalid]; rfl
        _ = s.carrier.tones := Table.set_get_self ..
    case startRefused =>
      rintro rfl u hu htones huidle
      have hrest : toneAt u 0 = ToneEntry.invalid := by rw [toneAt, htones, Table.get_set_self]
      exact exec_start_of_noRestTone hu huidle (by rw [hrest]; rfl)

end Sys2Proof.Machine
end

section
/-! The answer of READ_ROSTER (R134): the entries of a list of equal blocks, the three bytes of a Roster entry, and the
equation of the request. -/

namespace Sys2Proof

variable {α β : Type} {f : α → List β} {k : Nat}

theorem length_flatMap_of_length (hf : ∀ a, (f a).length = k) (l : List α) : (l.flatMap f).length = k * l.length := by
  rw [List.length_flatMap, funext hf, List.map_const', List.sum_replicate_nat, Nat.mul_comm]

/-- In a list of blocks of length `k`, place `k * i + j` is place `j` of block `i`. -/
theorem getElem?_flatMap_of_length (hf : ∀ a, (f a).length = k) {j : Nat} (hj : j < k) (l : List α) (i : Nat) :
    (l.flatMap f)[k * i + j]? = l[i]?.bind fun a => (f a)[j]? := by
  induction l generalizing i with
  | nil => rfl
  | cons a rest ih =>
    rw [List.flatMap_cons]
    cases i with
    | zero => rw [Nat.mul_zero, Nat.zero_add, List.getElem?_append_left (by rw [hf]; exact hj)]; rfl
    | succ i =>
      have hplace : k * (i + 1) + j = (f a).length + (k * i + j) := by rw [hf, Nat.mul_succ]; omega
      rw [hplace, List.getElem?_append_right (Nat.le_add_right ..), Nat.add_sub_cancel_left, ih, List.getElem?_cons_succ]

theorem Table.getElem?_items {n : Nat} (t : Table α n) (i : Fin n) : t.items[i.val]? = some (t.get i) := by
  rw [Table.get_eq, List.getElem?_eq_getElem]

end Sys2Proof

namespace Sys2Proof.Machine

/-! ### The bytes of a Roster entry (section 11.2) -/

theorem groupByte_eq (group : Option Group) : groupByte group = (group.map fun g => BitVec.ofNat 8 g.val).getD 0xFF := by
  cases group <;> rfl

/-- The three bytes of a Roster entry in the answer of READ_ROSTER. -/
def rosterEntryBytes (e : RosterEntry) : List Byte := [presenceCode e.presence, groupByte e.group, BitVec.ofNat 8 e.silence]

theorem rosterEntryBytes_length (e : RosterEntry) : (rosterEntryBytes e).length = 3 := rfl

theorem rosterBytes_eq (s : State) : rosterBytes s = s.membership.roster.items.flatMap rosterEntryBytes := rfl

theorem rosterBytes_length (s : State) : (rosterBytes s).length = 96 := by
  rw [rosterBytes_eq, length_flatMap_of_length rosterEntryBytes_length, s.membership.roster.sized]

/-- The bytes of station `n` stand at places `3 * n` to `3 * n + 2`. -/
theorem getElem?_rosterBytes (s : State) (n : StationNo) {j : Nat} (hj : j < 3) :
    (rosterBytes s)[3 * n.val + j]? = (rosterEntryBytes (rosterEntry s n))[j]? := by
  rw [rosterBytes_eq, getElem?_flatMap_of_length rosterEntryBytes_length hj, Table.getElem?_items, Option.bind_some,
    rosterEntry]

theorem rosterBytes_presence (s : State) (n : StationNo) :
    (rosterBytes s)[3 * n.val]? = some (presenceCode (rosterEntry s n).presence) :=
  getElem?_rosterBytes s n (j := 0) (by decide)

theorem rosterBytes_group (s : State) (n : StationNo) :
    (rosterBytes s)[3 * n.val + 1]? = some (groupByte (rosterEntry s n).group) :=
  getElem?_rosterBytes s n (by decide)

theorem rosterBytes_silence (s : State) (n : StationNo) :
    (rosterBytes s)[3 * n.val + 2]? = some (BitVec.ofNat 8 (rosterEntry s n).silence) :=
  getElem?_rosterBytes s n (by decide)

/-- The own entry is reported as ABSENT (R121, R134). -/
theorem rosterBytes_own_presence {s : State} (htables : TablesFollowState s) :
    (rosterBytes s)[3 * s.profile.station.val]? = some 0 := by
  obtain ⟨-, -, hown, -⟩ := htables
  have hplace := rosterBytes_presence s (ownNumber s)
  rw [hown] at hplace
  exact hplace

/-! ### The outcome of the request -/

theorem exec_readRoster (s : State) : exec .readRoster s = execReadRoster s := rfl

theorem exec_readRoster_of_taken {s : State} (ht : takesRequest .readRoster s = true) :
    exec .readRoster s = .next (respond 0x0B .ok (rosterBytes s) s) := by
  rw [exec_readRoster, execReadRoster, taking_of _ ht]

/-- Settles O23: the answer is 32 blocks of three bytes, one for each station number, and the block of station `n` holds the
codes of its Roster entry; the own entry is ABSENT by the tables' invariant. -/
theorem readRosterReportsEveryEntry : Obligations.ReadRosterReportsEveryEntry := by
  intro s ht
  refine ⟨rosterBytes s, exec_readRoster_of_taken ht, rosterBytes_length s, fun n => ⟨?presence, ?group, rosterBytes_silence s n⟩,
    rosterBytes_own_presence⟩
  case presence =>
    rw [rosterBytes_presence]
    cases (rosterEntry s n).presence <;> rfl
  case group => rw [rosterBytes_group, groupByte_eq]

end Sys2Proof.Machine
end

section
/-! READ_TALLIES, CLEAR_TALLIES (R164, R165) and TAKE_NOTICE (R169): the places of the bytes of a notice, the level of ATTN,
and one equation for each outcome of the three requests. -/

namespace Sys2Proof.Machine

/-! ### The bytes of a notice (section 11.2) -/

theorem ofNat_ite_zero (c : Prop) [Decidable c] (k : Nat) :
    BitVec.ofNat 8 (if c then k else 0) = if c then BitVec.ofNat 8 k else 0 := apply_ite ..

theorem noticePresent_eq (n : Notice) : noticePresent n = BitVec.ofNat 8 ((if n.epoch.isSome then 1 else 0) +
    (if (reportStation n.report).isSome then 2 else 0) + (if (reportOrder n.report).isSome then 4 else 0)) := by
  simp only [BitVec.ofNat_add, ofNat_ite_zero]
  rfl

/-- The eleven bytes of a notice: kind, present fields, the two of the epoch, station, the two of the order id, then the
detail. -/
theorem noticeBytes_eq (n : Notice) : noticeBytes n =
    [BitVec.ofNat 8 (reportCode n.report), noticePresent n,
     BitVec.ofNat 8 (((n.epoch.map fun e => e.toNat).getD 0) / 256), BitVec.ofNat 8 ((n.epoch.map fun e => e.toNat).getD 0),
     BitVec.ofNat 8 (((reportStation n.report).map fun x => x.val).getD 0),
     BitVec.ofNat 8 (((reportOrder n.report).map fun x => x.origin.val).getD 0),
     ((reportOrder n.report).map fun x => x.seq).getD 0] ++ (reportDetail n.report ++ [0, 0, 0, 0]).take 4 := by
  rw [noticeBytes, portBytes_two]
  rfl

theorem noticeBytes_length (n : Notice) : (noticeBytes n).length = 11 := by
  simp [noticeBytes_eq]

theorem noticeBytes_kind (n : Notice) : (noticeBytes n)[0]? = some (BitVec.ofNat 8 (reportCode n.report)) := rfl

theorem noticeBytes_present (n : Notice) : (noticeBytes n)[1]? = some (noticePresent n) := rfl

theorem noticeBytes_epoch (n : Notice) : ((noticeBytes n).drop 2).take 2 =
    [BitVec.ofNat 8 (((n.epoch.map fun e => e.toNat).getD 0) / 256),
     BitVec.ofNat 8 ((n.epoch.map fun e => e.toNat).getD 0)] := by
  rw [noticeBytes_eq]
  rfl

theorem noticeBytes_station (n : Notice) :
    (noticeBytes n)[4]? = some (BitVec.ofNat 8 (((reportStation n.report).map fun x => x.val).getD 0)) := by
  rw [noticeBytes_eq]
  rfl

theorem noticeBytes_order (n : Notice) : ((noticeBytes n).drop 5).take 2 =
    [BitVec.ofNat 8 (((reportOrder n.report).map fun x => x.origin.val).getD 0),
     ((reportOrder n.report).map fun x => x.seq).getD 0] := by
  rw [noticeBytes_eq]
  rfl

theorem noticeBytes_detail (n : Notice) : (noticeBytes n).drop 7 = (reportDetail n.report ++ [0, 0, 0, 0]).take 4 := by
  rw [noticeBytes_eq]
  rfl

/-! ### The level of ATTN (R170) -/

theorem attnLow_iff (s : State) : attnLow s = true ↔ s.monitor.notices ≠ [] := by
  simp [attnLow]

theorem attnLow_eq_of_notices_eq {s t : State} (h : t.monitor.notices = s.monitor.notices) : attnLow t = attnLow s := by
  rw [attnLow, h, attnLow]

/-! ### The outcomes of the three requests -/

section
variable {s : State}

theorem exec_readTallies (s : State) : exec .readTallies s = execReadTallies s := rfl

theorem exec_clearTallies (s : State) : exec .clearTallies s = execClearTallies s := rfl

theorem exec_takeNotice (s : State) : exec .takeNotice s = execTakeNotice s := rfl

theorem exec_readTallies_of_taken (ht : takesRequest .readTallies s = true) :
    exec .readTallies s = .next (respond 0x0E .ok (tallyBytes s.monitor) s) := by
  rw [exec_readTallies, execReadTallies, taking_of _ ht]

theorem exec_clearTallies_of_taken (ht : takesRequest .clearTallies s = true) :
    exec .clearTallies s = .next (respond 0x0F .ok []
      { s with monitor := { s.monitor with tallies := Tallies.zero, overflow := 0 } }) := by
  rw [exec_clearTallies, execClearTallies, taking_of _ ht]

theorem exec_takeNotice_of_none (ht : takesRequest .takeNotice s = true) (hnone : s.monitor.notices = []) :
    exec .takeNotice s = .next (respond 0x10 .empty [] s) := by
  rw [exec_takeNotice, execTakeNotice, taking_of _ ht]
  simp only [hnone]

theorem exec_takeNotice_of_waiting {n : Notice} {rest : List Notice} (ht : takesRequest .takeNotice s = true)
    (hwaiting : s.monitor.notices = n :: rest) : exec .takeNotice s =
      .next (respond 0x10 .ok (noticeBytes n) { s with monitor := { s.monitor with notices := rest } }) := by
  rw [exec_takeNotice, execTakeNotice, taking_of _ ht]
  simp only [hwaiting]

end

/-- Settles O26: with no notice the answer is EMPTY; the oldest notice is answered by its eleven bytes, and a field that
is absent has the default 0 in its places. -/
theorem takeNoticeReturnsTheOldest : Obligations.TakeNoticeReturnsTheOldest := by
  intro s ht
  refine ⟨fun hnone => exec_takeNotice_of_none ht hnone, fun n rest hwaiting => ?_⟩
  refine ⟨_, noticeBytes n, exec_takeNotice_of_waiting ht hwaiting, rfl, attnLow_iff _, noticeBytes_length n,
    noticeBytes_kind n, ?present, ?epoch, ?noEpoch, ?station, ?noStation, ?order, ?noOrder, noticeBytes_detail n⟩
  case present => rw [noticeBytes_present, noticePresent_eq]
  case epoch => intro e he; rw [noticeBytes_epoch, he]; rfl
  case noEpoch => intro he; rw [noticeBytes_epoch, he]; rfl
  case station => intro x hx; rw [noticeBytes_station, hx]; rfl
  case noStation => intro hx; rw [noticeBytes_station, hx]; rfl
  case order => intro x hx; rw [noticeBytes_order, hx]; rfl
  case noOrder => intro hx; rw [noticeBytes_order, hx]; rfl

/-- Settles O25: the answer of READ_TALLIES is the seven counts as they stand; CLEAR_TALLIES writes the counts alone, so
ATTN, which the notices decide, stays. -/
theorem talliesAreReadAndCleared : Obligations.TalliesAreReadAndCleared := by
  intro s
  refine ⟨fun ht => exec_readTallies_of_taken ht, fun ht => ?_⟩
  exact ⟨_, exec_clearTallies_of_taken ht, rfl, attnLow_eq_of_notices_eq rfl⟩

end Sys2Proof.Machine
end
section
/-! The proofs below are elaborated one after another: side by side they need more threads than the memory limit of the check
leaves room for. -/

set_option Elab.async false

section
/-! What a command is made of. Every command but a request, a reset and the counting of a boundary is a chain of the changes
listed in `Change`, each a change of one unit under the conditions the manual puts on it. A property that every change keeps
is kept by every shared operation, which is said here once for each of them. -/

namespace Sys2Proof.Machine

/-- Only a LEAVING station remembers a destination (R116). -/
def LeavingOnly (s : State) : Prop := s.membership.leaving.isSome = true → s.membership.state = .leaving

/-- No tone runs, as after a carrier reset (R82). -/
def CarrierAtRest (s : State) : Prop := s.carrier = (carrierReset s).carrier

/-- One change of the station. `lax` admits the changes made in states where a destination is remembered outside LEAVING,
which no station reaches; `dirty` admits what a frame with the own number does to an own order before the station leaves the
bus (R119). -/
inductive Change (lax dirty : Prop) : State → State → Prop
  | monitor (s : State) (m : Monitor) (bounded : MonitorBounded s → MonitorBounded { s with monitor := m }) :
      Change lax dirty s { s with monitor := m }
  | bus (s : State) (b : BusInterface)
      (sending : ∀ a ∈ b.sending,
        (∃ x ∈ s.bus.sending, x.ident = a.ident) ∨ ∃ e ∈ s.queue.entries, e.ident = a.ident)
      (idle : s.bus.idleCount ≤ 6 → b.idleCount ≤ 6) (attempts : s.bus.attempts < 8 → b.attempts < 8) :
      Change lax dirty s { s with bus := b }
  | drop (s : State) (entries : List QueueEntry) (fewer : entries.Sublist s.queue.entries) :
      Change lax dirty s { s with queue := { s.queue with entries := entries } }
  | append (p : Payload) (s : State) (room : s.queue.entries.length < 8)
      (fresh : ∀ e ∈ s.queue.entries, sameLimit p e.payload = false)
      (leaving : isLeavingFrame p = true → s.membership.state = .leaving) : Change lax dirty s (appendFrame p s)
  | displace (p : Payload) (ident : Nat) (s : State) (held : ∃ e ∈ s.queue.entries, e.ident = ident)
      (fresh : ∀ e ∈ s.queue.entries, sameLimit p e.payload = false)
      (leaving : isLeavingFrame p = true → s.membership.state = .leaving) :
      Change lax dirty s (appendFrame p
        { s with queue := { s.queue with entries := s.queue.entries.filter fun e => e.ident != ident } })
  | replace (p : Payload) (old : QueueEntry) (s : State) (held : old ∈ s.queue.entries)
      (same : sameLimit p old.payload = true)
      (leaving : isLeavingFrame p = true → s.membership.state = .leaving) :
      Change lax dirty s { s with queue :=
        { entries := s.queue.entries.map fun e => if e.ident == old.ident then ⟨s.queue.nextIdent, e.age, p⟩ else e
          nextIdent := s.queue.nextIdent + 1 } }
  | freeBallot (seq : Seq) (s : State) : Change lax dirty s (freeBallot seq s)
  | dropOrders (p : Order → Bool) (s : State)
      (ballots : dirty ∨ s.membership.state ≠ .member ∨
        ∀ b ∈ openBallots s, ∀ o, p o = true → o.id ≠ ownId s b.seq) :
      Change lax dirty s { s with orders := { s.orders with schedule := s.orders.schedule.dropWhere p } }
  | clearOrders (s : State) : Change lax dirty s { s with orders := ordersCleared s.orders }
  | addOrder (o : Order) (s : State) (recording : recordingState s.membership.state = true)
      (fresh : ∀ x ∈ liveOrders s, x.id ≠ o.id ∧ x.target ≠ o.target)
      (ahead : s.membership.state = .aligning ∨ ∀ g ∈ s.timer.grid, aheadOf g.counter o.target = true) :
      Change lax dirty s (addOrder o s)
  | updateOrder (id : OrderId) (f : Order → Order) (s : State)
      (same : ∀ o, (f o).id = o.id ∧ (f o).target = o.target)
      (ballots : dirty ∨ (∀ o, (f o).state = o.state) ∨ ∀ b ∈ openBallots s, ownId s b.seq ≠ id) :
      Change lax dirty s (updateOrder id f s)
  | updateBallot (seq : Seq) (f : Ballot → Ballot) (b : Ballot) (s : State) (found : ballotWithSeq s seq = some b)
      (same : (f b).seq = b.seq ∧ (f b).target = b.target)
      (accepted : subset b.accepted b.electorate = true → subset (f b).accepted (f b).electorate = true)
      (own : inSet (f b).electorate (ownNumber s) = true →
        inSet b.electorate (ownNumber s) = true ∨ (rosterEntry s (ownNumber s)).presence = .member) :
      Change lax dirty s (updateBallot seq f s)
  | dropElector (n : StationNo) (s : State) :
      Change lax dirty s { s with orders :=
        { s.orders with ballots := s.orders.ballots.map (Option.map (withoutElector n)) } }
  | carrier (s : State) (c : Carrier) (tones : c.tones = s.carrier.tones)
      (follows : CarrierFollowsState s → CarrierFollowsState { s with carrier := c }) :
      Change lax dirty s { s with carrier := c }
  | timer (s : State) (t : EpochTimer) (counter : (t.grid.map fun g => g.counter) = s.timer.grid.map fun g => g.counter)
      (follows : TimerFollowsState s → TimerFollowsState { s with timer := t })
      (range : GridInRange s → GridInRange { s with timer := t }) :
      Change lax dirty s { s with timer := t }
  | membership (s : State) (m : Membership) (state : m.state = s.membership.state)
      (leaving : m.leaving.isSome = s.membership.leaving.isSome) (roster : m.roster = s.membership.roster)
      (counts : CountsInRange s → CountsInRange { s with membership := m }) :
      Change lax dirty s { s with membership := m }
  | roster (s : State) (r : Table RosterEntry 32)
      (own : rosterEntry s (ownNumber s) = RosterEntry.absent → r.get (ownNumber s) = RosterEntry.absent)
      (recording : lax ∨ recordingState s.membership.state = true ∨
        ∀ n, rosterEntry s n = RosterEntry.absent → r.get n = RosterEntry.absent) :
      Change lax dirty s { s with membership := { s.membership with roster := r } }
  | toIdle (s : State) (silent : lax ∨ gridState s.membership.state = false ∨ CarrierAtRest s) :
      Change lax dirty s (enterIdle s)
  | toListen (keep : Bool) (s : State) (silent : lax ∨ gridState s.membership.state = false ∨ CarrierAtRest s)
      (orders : lax ∨ recordingState s.membership.state = false ∨ (liveOrders s = [] ∧ openBallots s = []))
      (queue : s.membership.state ≠ .leaving ∨ s.queue.entries = []) : Change lax dirty s (enterListen keep s)
  | toLeaving (cause : Cause) (destination : Destination) (s : State) :
      Change lax dirty s (enterLeaving cause destination { s with orders := ordersCleared s.orders })
  | toForming (set : Table (Option Group) 32) (s : State) (state : s.membership.state = .listen) :
      Change lax dirty s { s with
        membership := { membershipCleared .forming s.membership with formation := set }
        timer := { s.timer with claims := { s.timer.claims with formation := true } } }
  | toAligning (horizon : Epoch) (reference : Reference) (s : State)
      (state : s.membership.state = .listen ∨ s.membership.state = .forming) :
      Change lax dirty s { s with
        membership := { membershipCleared .aligning s.membership with blindHorizon := some horizon }
        timer := { timerCleared s.timer with reference := some reference } }
  | toArriving (counter : Epoch) (phase : Nat) (horizon : Option Epoch) (s : State)
      (state : s.membership.state = .aligning) (ahead : ∀ o ∈ liveOrders s, aheadOf counter o.target = true)
      (range : ProfileInRange s → phase < epochLength s.profile) :
      Change lax dirty s { s with
        timer := { timerCleared s.timer with grid := some ⟨counter, phase, 0, false⟩ }
        membership := { s.membership with state := .arriving, alignTimer := 0, blindHorizon := horizon } }
  | toMember (s : State) (state : s.membership.state = .arriving) :
      Change lax dirty s { s with membership := { s.membership with state := .member, memberMarks := 0 } }
  | found (roster : Table RosterEntry 32) (s : State) (state : s.membership.state = .forming)
      (own : roster.get (ownNumber s) = RosterEntry.absent) :
      Change lax dirty s { s with
        timer := { timerCleared s.timer with grid := some ⟨0, 0, 0, false⟩ }
        membership := { membershipCleared .member s.membership with roster := roster } }

/-- A property that every change keeps; with the strict changes it must shut out a destination remembered outside
LEAVING. -/
structure Kept (lax dirty : Prop) (P : State → Prop) : Prop where
  change : ∀ {s t : State}, Change lax dirty s t → P s → P t
  leaving : lax ∨ ∀ s, P s → LeavingOnly s

/-! ### The Monitor and the Bus Interface -/

theorem postNotice_disabled {mask : BitVec 18} {n : Notice} (m : Monitor)
    (h : mask.getLsbD (reportCode n.report - 1) = false) : postNotice mask n m = m := by
  simp [postNotice, h]

theorem postNotice_room {mask : BitVec 18} {n : Notice} {m : Monitor}
    (h : mask.getLsbD (reportCode n.report - 1) = true) (room : m.notices.length < 16) :
    postNotice mask n m = { m with notices := m.notices ++ [n] } := by
  simp [postNotice, h, Config.noticePlaces, room]

theorem postNotice_full {mask : BitVec 18} {n : Notice} {m : Monitor}
    (h : mask.getLsbD (reportCode n.report - 1) = true) (full : 16 ≤ m.notices.length) :
    postNotice mask n m = { m with overflow := min (m.overflow + 1) 255 } := by
  simp [postNotice, h, Config.noticePlaces, Config.tallyTop, Nat.not_lt.mpr full]

/-- What a posted notice does to the Monitor, by the three cases of R168. -/
theorem postNotice_cases (mask : BitVec 18) (n : Notice) (m : Monitor) :
    postNotice mask n m = m ∨
      (m.notices.length < 16 ∧ postNotice mask n m = { m with notices := m.notices ++ [n] }) ∨
      postNotice mask n m = { m with overflow := min (m.overflow + 1) 255 } := by
  cases h : mask.getLsbD (reportCode n.report - 1) with
  | false => exact .inl (postNotice_disabled m h)
  | true =>
    rcases Nat.lt_or_ge m.notices.length 16 with room | full
    · exact .inr (.inl ⟨room, postNotice_room h room⟩)
    · exact .inr (.inr (postNotice_full h full))

theorem monitorBounded_post (r : Report) (s : State) (h : MonitorBounded s) : MonitorBounded (post r s) := by
  obtain ⟨notices, overflow, tallies⟩ := h
  unfold post
  rcases postNotice_cases s.profile.noticeMask ⟨r, s.timer.grid.map (·.counter)⟩ s.monitor with
    same | ⟨room, queued⟩ | full
  · rw [same]; exact ⟨notices, overflow, tallies⟩
  · rw [queued]; exact ⟨by simpa using room, overflow, tallies⟩
  · rw [full]; exact ⟨notices, Nat.min_le_right .., tallies⟩

theorem tallies_bounded_setTally (k : TallyKind) (n : Nat) (hn : n ≤ 255) (s : State) (h : MonitorBounded s) :
    MonitorBounded { s with monitor := { s.monitor with tallies := setTally k n s.monitor.tallies } } := by
  obtain ⟨notices, overflow, check, spoil, drop, stray, skew, disagree⟩ := h
  cases k <;> exact ⟨notices, overflow, by assumption, by assumption, by assumption, by assumption, by assumption, by assumption⟩

theorem monitorBounded_countTally (k : TallyKind) (s : State) (h : MonitorBounded s) :
    MonitorBounded (countTally k s).1 := by
  unfold countTally
  dsimp only
  split
  case isFalse => exact h
  case isTrue counts =>
    have top : tallyOf k s.monitor.tallies < 255 := by
      exact of_decide_eq_true (Bool.and_eq_true_iff.mp counts).2
    have counted := tallies_bounded_setTally k (tallyOf k s.monitor.tallies + 1) top s h
    split
    · exact monitorBounded_post _ _ counted
    · exact counted

/-- A tally changes the Monitor alone. -/
theorem countTally_eq (k : TallyKind) (s : State) :
    (countTally k s).1 = { s with monitor := (countTally k s).1.monitor } := by
  unfold countTally
  dsimp only
  split
  · split <;> rfl
  · rfl

theorem forgetAttempts_sending (gone : Nat → Bool) (b : BusInterface) :
    (forgetAttempts gone b).sending = b.sending := by
  unfold forgetAttempts; split <;> rfl

theorem forgetAttempts_idleCount (gone : Nat → Bool) (b : BusInterface) :
    (forgetAttempts gone b).idleCount = b.idleCount := by
  unfold forgetAttempts; split <;> rfl

theorem forgetAttempts_attempts_lt (gone : Nat → Bool) (b : BusInterface) (h : b.attempts < 8) :
    (forgetAttempts gone b).attempts < 8 := by
  unfold forgetAttempts; split
  · exact Nat.zero_lt_succ 7
  · exact h

theorem frameEnds_sending (s : State) : (frameEnds s).bus.sending = s.bus.sending := by
  unfold frameEnds; split <;> rfl

theorem frameEnds_attempts (s : State) : (frameEnds s).bus.attempts = s.bus.attempts := by
  unfold frameEnds; split <;> rfl

theorem frameEnds_idleCount_le (s : State) (h : s.bus.idleCount ≤ 6) : (frameEnds s).bus.idleCount ≤ 6 := by
  unfold frameEnds; split
  · exact h
  · exact Nat.zero_le _

theorem frameEnds_eq (s : State) : frameEnds s = { s with bus := (frameEnds s).bus } := by
  unfold frameEnds; split <;> rfl

section
variable {lax dirty : Prop} {P : State → Prop} (k : Kept lax dirty P)
include k

theorem Kept.post (r : Report) (s : State) (hs : P s) : P (post r s) :=
  k.change (.monitor s _ (monitorBounded_post r s)) hs

theorem Kept.postDropped (how : FrameLoss) (p : Payload) (s : State) (hs : P s) : P (postDropped how p s) :=
  k.post _ _ hs

theorem Kept.countTally (kind : TallyKind) (s : State) (hs : P s) : P (countTally kind s).1 := by
  rw [countTally_eq]
  exact k.change (.monitor s _ (countTally_eq kind s ▸ monitorBounded_countTally kind s)) hs

/-- A change of the Bus Interface that starts no attempt. -/
theorem Kept.busSame (s : State) (b : BusInterface) (sending : b.sending = none ∨ b.sending = s.bus.sending)
    (idle : s.bus.idleCount ≤ 6 → b.idleCount ≤ 6) (attempts : s.bus.attempts < 8 → b.attempts < 8) (hs : P s) :
    P { s with bus := b } := by
  refine k.change (.bus s b (fun a ha => .inl ?_) idle attempts) hs
  rcases sending with none | same
  · rw [none] at ha; cases ha
  · exact ⟨a, same ▸ ha, rfl⟩

theorem Kept.frameEnds (s : State) (hs : P s) : P (frameEnds s) := by
  rw [frameEnds_eq]
  exact k.busSame s _ (.inr (frameEnds_sending s)) (frameEnds_idleCount_le s) (frameEnds_attempts s ▸ id) hs

theorem Kept.attemptOver (s : State) (hs : P s) : P (attemptOver s) :=
  k.busSame s _ (.inl rfl) id id hs

theorem Kept.clearAttempts (s : State) (hs : P s) : P (clearAttempts s) :=
  k.busSame s _ (.inr rfl) id (fun _ => by simp) hs

theorem Kept.forgetAttempts (gone : Nat → Bool) (s : State) (hs : P s) :
    P { s with bus := forgetAttempts gone s.bus } :=
  k.busSame s _ (.inr (forgetAttempts_sending ..)) (fun h => by rw [forgetAttempts_idleCount]; exact h)
    (forgetAttempts_attempts_lt _ _) hs

/-! ### Removals from the queue -/

theorem Kept.purgeWhere (p : QueueEntry → Bool) (s : State) (hs : P s) : P (purgeWhere p s) := by
  let marked : State := { s with bus := { s.bus with sending := s.bus.sending.map fun a =>
    { a with removeAfter := a.removeAfter || s.queue.entries.any fun e => p e && inTransmission s e } } }
  have hmarked : P marked := by
    refine k.change (.bus s _ (fun a ha => .inl ?_) id id) hs
    obtain ⟨x, hx, rfl⟩ := Option.map_eq_some_iff.mp ha
    exact ⟨x, hx, rfl⟩
  exact k.change (.drop _ _ List.filter_sublist)
    (k.forgetAttempts (fun i => (s.queue.entries.filter fun e => p e && !inTransmission s e).any fun e => e.ident == i)
      marked hmarked)

theorem Kept.purgeOrder (id : OrderId) (s : State) (hs : P s) : P (purgeOrder id s) := k.purgeWhere _ s hs

theorem Kept.removeFrame (ident : Nat) (s : State) (hs : P s) : P (removeFrame ident s) :=
  k.change (.drop _ _ List.filter_sublist) (k.forgetAttempts (fun i => i == ident) s hs)

theorem Kept.removeIf (doomed : Bool) (ident : Nat) (s : State) (hs : P s) : P (removeIf doomed ident s) := by
  unfold Machine.removeIf; split
  · exact k.removeFrame ident s hs
  · exact hs

end

/-! ### Offers, losses and aborts -/

theorem foldl_max_ge (f : QueueEntry → Nat) (l : List QueueEntry) (top : Nat) :
    top ≤ l.foldl (fun t e => max t (f e)) top ∧ ∀ e ∈ l, f e ≤ l.foldl (fun t e => max t (f e)) top := by
  induction l generalizing top with
  | nil => simp
  | cons a l ih =>
    obtain ⟨start, members⟩ := ih (max top (f a))
    refine ⟨le_trans (le_max_left ..) start, fun e he => ?_⟩
    rcases List.mem_cons.mp he with rfl | he
    · exact le_trans (le_max_right ..) start
    · exact members e he

theorem foldl_max_mem (f : QueueEntry → Nat) (l : List QueueEntry) (top : Nat) :
    l.foldl (fun t e => max t (f e)) top = top ∨ ∃ e ∈ l, f e = l.foldl (fun t e => max t (f e)) top := by
  induction l generalizing top with
  | nil => exact .inl rfl
  | cons a l ih =>
    rcases ih (max top (f a)) with start | ⟨e, he, hf⟩
    · rcases le_total top (f a) with hle | hle
      · exact .inr ⟨a, by simp, by rw [List.foldl_cons, start, max_eq_right hle]⟩
      · exact .inl (by rw [List.foldl_cons, start, max_eq_left hle])
    · exact .inr ⟨e, by simp [he], hf⟩

theorem kindCode_pos (kind : FrameKind) : 0 < kindCode kind := by cases kind <;> decide

theorem le_highestCode {s : State} {e : QueueEntry} (he : e ∈ s.queue.entries) :
    kindCode (payloadKind e.payload) ≤ highestCode s :=
  (foldl_max_ge (fun e => kindCode (payloadKind e.payload)) s.queue.entries 0).2 e he

/-- A queue that is not empty holds a frame of the highest code. -/
theorem exists_highestCode {s : State} (h : s.queue.entries ≠ []) :
    ∃ e ∈ s.queue.entries, kindCode (payloadKind e.payload) = highestCode s := by
  rcases foldl_max_mem (fun e => kindCode (payloadKind e.payload)) s.queue.entries 0 with zero | found
  · obtain ⟨e, he⟩ := List.exists_mem_of_ne_nil _ h
    have := le_highestCode he
    have := kindCode_pos (payloadKind e.payload)
    simp only [highestCode] at *
    omega
  · exact found

theorem mem_of_newestWaiting {code : Nat} {s : State} {e : QueueEntry} (h : newestWaiting code s = some e) :
    e ∈ s.queue.entries ∧ kindCode (payloadKind e.payload) = code ∧ inTransmission s e = false := by
  have := List.mem_filter.mp (List.mem_of_getLast? h)
  simpa using this

/-- Where no frame of the highest code waits, one is in transmission (R154). -/
theorem sending_of_newestWaiting_none {s : State} (hne : s.queue.entries ≠ [])
    (h : newestWaiting (highestCode s) s = none) :
    ∃ a e, s.bus.sending = some a ∧ e ∈ s.queue.entries ∧ e.ident = a.ident := by
  obtain ⟨e, he, hcode⟩ := exists_highestCode hne
  rw [newestWaiting, List.getLast?_eq_none_iff, List.filter_eq_nil_iff] at h
  have sent : inTransmission s e = true := by simpa [hcode] using h e he
  cases ha : s.bus.sending with
  | none => simp [inTransmission, ha] at sent
  | some a =>
    simp only [inTransmission, ha, Option.any_some, Bool.and_eq_true, beq_iff_eq] at sent
    exact ⟨a, e, rfl, he, sent.1.symm⟩

section
variable {lax dirty : Prop} {P : State → Prop} (k : Kept lax dirty P)
include k

theorem Kept.offerWith {f : Payload → State → State} (hf : ∀ p s, P s → P (f p s)) (p : Payload) (s : State)
    (leaving : isLeavingFrame p = true → s.membership.state = .leaving) (hs : P s) : P (offerWith f p s) := by
  unfold Machine.offerWith
  split
  case h_1 e found =>
    split
    case isTrue => exact hf _ _ (k.postDropped _ _ _ hs)
    case isFalse =>
      exact k.change (.replace p e { s with bus := Machine.forgetAttempts (fun i => i == e.ident) s.bus }
        (List.mem_of_find?_eq_some found) (by simpa using List.find?_some found) leaving)
        (k.forgetAttempts (fun i => i == e.ident) s hs)
  case h_2 none =>
    have fresh : ∀ e ∈ s.queue.entries, sameLimit p e.payload = false := by simpa using none
    split
    case isTrue room => exact k.change (.append p s room fresh leaving) hs
    case isFalse full =>
      split
      case isFalse => exact hf _ _ (k.postDropped _ _ _ hs)
      case isTrue =>
        split
        case h_1 victim hvictim =>
          refine hf _ _ (k.postDropped _ _ _ ?_)
          exact k.change (.displace p victim.ident
            { s with bus := Machine.forgetAttempts (fun i => i == victim.ident) s.bus } ⟨victim, (mem_of_newestWaiting hvictim).1, rfl⟩ fresh leaving)
            (k.forgetAttempts (fun i => i == victim.ident) s hs)
        case h_2 nothingWaits =>
          have hne : s.queue.entries ≠ [] := by
            intro nil; simp [nil, Config.queuePlaces] at full
          obtain ⟨a, e, ha, he, hident⟩ := sending_of_newestWaiting_none hne nothingWaits
          simp only [ha]
          let displaced : BusInterface := { s.bus with sending := some { a with displaced := true } }
          have hdisplaced : P { s with bus := displaced } := by
            refine k.change (.bus s _ (fun x hx => .inl ⟨a, ha, ?_⟩) id id) hs
            cases hx; rfl
          exact k.change (.displace p a.ident { s with bus := Machine.forgetAttempts (fun i => i == a.ident) displaced }
            ⟨e, he, hident⟩ fresh leaving) (k.forgetAttempts (fun i => i == a.ident) _ hdisplaced)

theorem Kept.abandon (seq : Seq) (s : State) (hs : P s) :
    P (Machine.purgeOrder (ownId s seq) (Machine.freeBallot seq (removeOrder (ownId s seq) s))) := by
  apply k.purgeOrder
  refine k.change (.dropOrders (fun o => o.id == ownId s seq) (Machine.freeBallot seq s) (.inr (.inr ?_)))
    (k.change (.freeBallot seq s) hs)
  intro b hb o ho same
  rw [openBallots_freeBallot, List.mem_filter] at hb
  have hid : ownId s seq = ownId s b.seq := (beq_iff_eq.mp ho).symm.trans same
  have : seq = b.seq := by simpa [ownId] using hid
  simp [this] at hb

theorem Kept.abortWith {f : Payload → State → State} (hf : ∀ p s, P s → P (f p s)) (b : Ballot) (reason : AbortReason)
    (hreason : reason ≠ .originLeaving) (refuser : StationNo) (s : State) (hs : P s) :
    P (abortWith f b reason refuser s) := by
  unfold Machine.abortWith
  apply k.post
  split
  · exact k.abandon _ _ hs
  · refine k.offerWith hf _ _ (fun h => ?_) (k.abandon _ _ hs)
    cases reason <;> simp_all [isLeavingFrame]

theorem Kept.endLeaving (s : State) (hs : P s) : P (endLeaving s) := by
  unfold Machine.endLeaving
  split
  case h_1 => exact hs
  case h_2 l hl =>
    have leaving : lax ∨ s.membership.state = .leaving := k.leaving.imp_right fun h => h s hs (by rw [hl]; rfl)
    have silent : lax ∨ gridState s.membership.state = false := leaving.imp_right fun h => by rw [h]; rfl
    split
    · exact k.change (.toIdle s (silent.imp_right .inl)) hs
    · exact k.change (.toListen false _ (silent.imp_right .inl)
        (leaving.imp_right fun h => .inl (by show recordingState s.membership.state = false; rw [h]; rfl)) (.inr rfl))
        (k.change (.drop s [] (List.nil_sublist _)) hs)

theorem Kept.lose (n : Nat) (p : Payload) (s : State) (hs : P s) : P (lose n p s) := by
  induction n generalizing p s with
  | zero => exact hs
  | succ n ih =>
    unfold Machine.lose
    split
    · split
      · split
        · exact k.abortWith ih _ _ (by simp) _ _ hs
        · exact hs
      · exact hs
    · split
      · split
        · exact k.abortWith ih _ _ (by simp) _ _ hs
        · exact hs
      · exact hs
    · exact k.change (.updateOrder _ _ s (fun _ => ⟨rfl, rfl⟩) (.inr (.inl fun _ => rfl))) hs
    · exact k.endLeaving s hs
    · exact hs

theorem Kept.loseFrame (p : Payload) (s : State) (hs : P s) : P (loseFrame p s) := k.lose _ p s hs

theorem Kept.offer (p : Payload) (s : State) (leaving : isLeavingFrame p = true → s.membership.state = .leaving)
    (hs : P s) : P (offer p s) :=
  k.offerWith k.loseFrame p s leaving hs

theorem Kept.abortOwn (b : Ballot) (reason : AbortReason) (hreason : reason ≠ .originLeaving) (refuser : StationNo)
    (s : State) (hs : P s) : P (abortOwn b reason refuser s) :=
  k.abortWith k.loseFrame b reason hreason refuser s hs

theorem Kept.checkBallot (seq : Seq) (s : State) (hs : P s) : P (checkBallot seq s) := by
  unfold Machine.checkBallot
  split
  case h_1 b found =>
    split
    · refine k.offer _ _ (by simp [isLeavingFrame]) (k.change (.updateBallot _ _ b s ?_ ⟨rfl, rfl⟩ id .inl) hs)
      rw [(ballotWithSeq_some found).2]; exact found
    · exact hs
  case h_2 => exact hs

theorem Kept.loseElector (n : StationNo) (s : State) (hs : P s) : P (loseElector n s) := by
  unfold Machine.loseElector
  have start := k.change (.dropElector n s) hs
  revert start
  generalize openBallots s = l
  generalize { s with orders := { s.orders with ballots := s.orders.ballots.map (Option.map (withoutElector n)) } } = t
  induction l generalizing t with
  | nil => exact id
  | cons b l ih => exact fun ht => ih _ (k.checkBallot _ _ ht)

theorem Kept.retireOrder (id : OrderId) (s : State) (hs : P s) : P (retireOrder id s) := by
  unfold Machine.retireOrder
  apply k.purgeOrder
  split
  case isTrue own =>
    refine k.change (.dropOrders (fun o => o.id == id) (Machine.freeBallot id.seq s) (.inr (.inr ?_)))
      (k.change (.freeBallot id.seq s) hs)
    intro b hb o ho same
    rw [openBallots_freeBallot, List.mem_filter] at hb
    have : id = ownId s b.seq := (beq_iff_eq.mp ho).symm.trans same
    simp [this, ownId] at hb
  case isFalse foreign =>
    refine k.change (.dropOrders (fun o => o.id == id) s (.inr (.inr ?_))) hs
    intro b _ o ho same
    have : id = ownId s b.seq := (beq_iff_eq.mp ho).symm.trans same
    exact foreign (by rw [this]; rfl)

end

end Sys2Proof.Machine
end
section
/-! The shared operations of the Membership Controller and the deliveries of accepted frames keep what every change keeps. -/

namespace Sys2Proof.Machine

/-! ### Sets of stations -/

theorem inSet_single (m n : StationNo) : inSet (single m) n = decide (m = n) := by
  simp [inSet, single, Fin.ext_iff, eq_comm]

theorem inSet_addTo (set : StationSet) (m n : StationNo) : inSet (addTo set m) n = (inSet set n || decide (m = n)) := by
  rw [← inSet_single]; simp [inSet, addTo]

theorem inSet_removeFrom (set : StationSet) (m n : StationNo) :
    inSet (removeFrom set m) n = (inSet set n && !decide (m = n)) := by
  rw [← inSet_single]; simp [inSet, removeFrom]

theorem inSet_zero (n : StationNo) : inSet 0 n = false := by simp [inSet]

theorem stationSet_ext {a b : StationSet} (h : ∀ n, inSet a n = inSet b n) : a = b := by
  apply BitVec.eq_of_getLsbD_eq
  intro i hi
  exact h ⟨i, hi⟩

/-- A set of stations is part of another exactly if all its members are members there. -/
theorem subset_iff (a b : StationSet) : subset a b = true ↔ ∀ n, inSet a n = true → inSet b n = true := by
  rw [subset, beq_iff_eq]
  constructor
  · intro h n hn
    rw [← h] at hn
    simp only [inSet, BitVec.getLsbD_and, Bool.and_eq_true] at hn
    exact hn.2
  · intro h
    refine stationSet_ext fun n => ?_
    have := h n
    simp only [inSet, BitVec.getLsbD_and] at *
    cases ha : a.getLsbD n.val <;> simp_all

theorem inSet_foldl (p : StationNo → Bool) (l : List StationNo) (set : StationSet) (n : StationNo) :
    inSet (l.foldl (fun set n => if p n then addTo set n else set) set) n = (inSet set n || (decide (n ∈ l) && p n)) := by
  induction l generalizing set with
  | nil => simp
  | cons m l ih =>
    rw [List.foldl_cons, ih]
    by_cases hmn : m = n
    · subst hmn; cases p m <;> simp [inSet_addTo]
    · have hnm : n ≠ m := Ne.symm hmn
      split <;> simp [inSet_addTo, hmn, hnm]

theorem inSet_setWhere (p : StationNo → Bool) (n : StationNo) : inSet (setWhere p) n = p n := by
  rw [setWhere, inSet_foldl, inSet_zero]; simp [allStations]

/-! ### Withdrawal -/

theorem thenRoster_keeps {P : State → Prop} {update : State → State}
    (h : ∀ t, recordingState t.membership.state = true → P t → P (update t)) (s : State) (hs : P s) :
    P (thenRoster update s) := by
  unfold thenRoster
  split
  case isTrue recording => exact h s recording hs
  case isFalse => exact hs

/-- An offer whose losses have no consequence reads nothing of the Order Engine. -/
theorem offerQuietly_orders (p : Payload) (s : State) (o : OrderEngine) :
    offerWith (fun _ u => u) p { s with orders := o } = { offerWith (fun _ u => u) p s with orders := o } := by
  unfold offerWith
  have code : highestCode { s with orders := o } = highestCode s := rfl
  have newest : newestWaiting (highestCode s) { s with orders := o } = newestWaiting (highestCode s) s := rfl
  rw [code, newest]
  dsimp only
  split
  · split <;> split <;> first | rfl | contradiction
  · split
    · rfl
    · split
      · split
        · rfl
        · split <;> rfl
      · rfl

theorem foldl_orders (f : State → Ballot → State) (hf : ∀ t b o, f { t with orders := o } b = { f t b with orders := o })
    (l : List Ballot) (t : State) (o : OrderEngine) :
    l.foldl f { t with orders := o } = { l.foldl f t with orders := o } := by
  induction l generalizing t with
  | nil => rfl
  | cons b l ih => rw [List.foldl_cons, List.foldl_cons, hf, ih]

/-- The open ballots for which a withdrawal queues an ORIGIN_LEAVING ABORT (R26). -/
def ballotsLeft (s : State) : List Ballot := (openBallots s).filter fun b => !commitOnBus s b.seq b.target

/-- The ORIGIN_LEAVING ABORTs of step 3 of a withdrawal (R26). -/
def offerLeaving (own : StationNo) (l : List Ballot) (s : State) : State :=
  l.foldl (fun t b => offerWith (fun _ u => u) (.abort b.seq b.target .originLeaving own) t) s

/-- The ORDER_ABORTED notices of step 3 of a withdrawal (R26). -/
def postLeaving (own : StationNo) (l : List Ballot) (s : State) : State :=
  l.foldl (fun t b => post (.orderAborted own ⟨own, b.seq⟩ .originLeaving) t) s

/-- Step 3 of a withdrawal does the same on an Order Engine that has been emptied first. -/
theorem abandonOrders_eq (s : State) : abandonOrders s =
    postLeaving (ownNumber s) (ballotsLeft s)
      (offerLeaving (ownNumber s) (ballotsLeft s) { s with orders := ordersCleared s.orders }) := by
  obtain ⟨-, -, -, -, cleared⟩ := abandonOrders_keeps s
  rw [offerLeaving, foldl_orders _ (fun t b o => offerQuietly_orders _ t o), postLeaving,
    foldl_orders _ (fun t b o => rfl), ← cleared]
  rfl

theorem offerLeaving_membership (own : StationNo) (l : List Ballot) (s : State) :
    (offerLeaving own l s).membership = s.membership := by
  induction l generalizing s with
  | nil => rfl
  | cons b l ih =>
    obtain ⟨-, membership, -⟩ := offerQuietly_keeps (.abort b.seq b.target .originLeaving own) s
    exact (ih _).trans membership

section
variable {lax dirty : Prop} {P : State → Prop} (k : Kept lax dirty P)
include k

theorem Kept.offerLeaving (own : StationNo) (l : List Ballot) (s : State) (leaving : s.membership.state = .leaving)
    (hs : P s) : P (offerLeaving own l s) := by
  induction l generalizing s with
  | nil => exact hs
  | cons b l ih =>
    obtain ⟨-, membership, -⟩ := offerQuietly_keeps (.abort b.seq b.target .originLeaving own) s
    exact ih _ (membership ▸ leaving) (k.offerWith (fun _ _ h => h) _ s (fun _ => leaving) hs)

theorem Kept.postLeaving (own : StationNo) (l : List Ballot) (s : State) (hs : P s) : P (postLeaving own l s) := by
  induction l generalizing s with
  | nil => exact hs
  | cons b l ih => exact ih _ (k.post _ s hs)

theorem Kept.withdrawNotice (cause : Cause) (s : State) (hs : P s) : P (withdrawNotice cause s) := by
  refine k.post _ _ (k.change (.membership s _ rfl rfl rfl ?_) hs)
  rintro ⟨idle, attempts, withdrawals, rest⟩
  refine ⟨idle, attempts, ?_, rest⟩
  show countedWithdrawals cause s.membership.withdrawals ≤ 15
  unfold countedWithdrawals
  split
  · exact Nat.min_le_right ..
  · exact withdrawals

theorem Kept.withdraw (cause : Cause) (s : State) (hs : P s) : P (withdraw cause s) := by
  unfold Machine.withdraw
  split
  case isFalse => exact hs
  case isTrue =>
    dsimp only
    generalize (if rejoinLimited s.profile.rejoinLimit cause s.membership.withdrawals = true then Destination.idle
      else causeDestination cause) = d
    let left := enterLeaving cause d
      { Machine.withdrawNotice cause s with orders := ordersCleared (Machine.withdrawNotice cause s).orders }
    have hleft : P left := k.change (.toLeaving cause d _) (k.withdrawNotice cause s hs)
    have abandoned : P (abandonOrders (enterLeaving cause d (Machine.withdrawNotice cause s))) := by
      rw [abandonOrders_eq]
      exact k.postLeaving _ _ _ (k.offerLeaving _ _ left rfl hleft)
    have leaving : (abandonOrders (enterLeaving cause d (Machine.withdrawNotice cause s))).membership.state = .leaving := by
      obtain ⟨-, membership, -⟩ := abandonOrders_keeps (enterLeaving cause d (Machine.withdrawNotice cause s))
      rw [membership]; rfl
    have purged := k.purgeWhere (fun e => match e.payload with
      | .abort _ _ .originLeaving _ => false
      | _ => true) _ abandoned
    split
    · exact k.endLeaving _ purged
    · exact k.offer _ _ (fun _ => leaving) purged

theorem Kept.withdrawIf (asked : Bool) (s : State) (hs : P s) : P (withdrawIf asked s) := by
  unfold Machine.withdrawIf; split
  · exact k.withdraw _ s hs
  · exact hs

theorem Kept.carrierReset (s : State) (hs : P s) : P (carrierReset s) :=
  k.change (.carrier s _ rfl fun ⟨_, _, _⟩ =>
    ⟨fun _ => ⟨rfl, rfl, rfl, rfl, rfl, fun _ h => by cases h⟩, fun h => absurd rfl h, Nat.zero_le _⟩) hs

/-! ### Returns to LISTEN and entries to FORMING and ALIGNING -/

theorem Kept.alignFailed (why : AlignFailure) (s : State) (hs : P s) : P (alignFailed why s) := by
  unfold Machine.alignFailed
  split
  case isFalse => exact hs
  case isTrue state =>
    let reset := Machine.carrierReset { Machine.post (.alignFailed why) s with orders := ordersCleared s.orders }
    have hreset : P reset := k.carrierReset _ (k.change (.clearOrders _) (k.post _ s hs))
    refine k.change (.toListen false (Machine.purgeWhere (fun _ => true) reset) (.inr (.inr rfl))
      (.inr (.inr ⟨liveOrders_cleared _ s.orders rfl, openBallots_cleared _ s.orders rfl⟩)) (.inl ?_))
      (k.purgeWhere _ reset hreset)
    show s.membership.state ≠ .leaving
    rcases state with h | h <;> rw [h] <;> decide

theorem Kept.duplicateNumber (was : StationState) (s : State)
    (silent : was = .listen → gridState s.membership.state = false) (hs : P s) : P (duplicateNumber was s) := by
  unfold Machine.duplicateNumber
  split
  case isTrue listen =>
    refine k.post _ _ (k.change (.toIdle s (.inr (.inl ?_))) hs)
    rcases listen with h | h
    · exact silent h
    · rw [h]; rfl
  case isFalse =>
    split
    case h_1 l hl => exact k.post _ _ (k.change (.membership s _ rfl (by rw [hl]; rfl) rfl id) hs)
    case h_2 => exact k.withdraw _ s hs

theorem Kept.releaseIfComplete (s : State) (hs : P s) : P (releaseIfComplete s) := by
  unfold Machine.releaseIfComplete
  split
  · exact k.change (.timer s _ rfl (fun ⟨grid, _, transient, aligning⟩ => ⟨grid, (by simp), transient, aligning⟩) id) hs
  · exact hs

theorem Kept.enterForming (sender : Option (StationNo × Group)) (s : State) (listen : s.membership.state = .listen)
    (hs : P s) : P (enterForming sender s) := by
  unfold Machine.enterForming
  exact k.releaseIfComplete _ (k.offer _ _ (by simp [isLeavingFrame, ownHello]) (k.change (.toForming _ s listen) hs))

/-- A Roster entry is made at a station that updates its Roster, or it is made ABSENT. -/
theorem Kept.setRoster (n : StationNo) (e : RosterEntry) (s : State)
    (recording : lax ∨ recordingState s.membership.state = true ∨ e = RosterEntry.absent) (hs : P s) :
    P (setRoster n e s) := by
  unfold Machine.setRoster
  split
  case isTrue => exact hs
  case isFalse foreign =>
    refine k.change (.roster s _ (fun own => ?_) (recording.imp_right (Or.imp_right fun absent m hm => ?_))) hs
    · rw [Table.get_set_other _ _ (Ne.symm foreign)]; exact own
    · rw [Table.get_set]
      split
      · exact absent
      · exact hm

theorem Kept.enterAligning (sender : StationNo) (mark horizon : Epoch) (start : Nat) (s : State)
    (state : s.membership.state = .listen ∨ s.membership.state = .forming) (hs : P s) :
    P (enterAligning sender mark horizon start s) := by
  unfold Machine.enterAligning
  exact k.setRoster _ _ _ (.inr (.inl rfl)) (k.purgeWhere _ _ (k.change (.toAligning _ _ s state) hs))

/-! ### Alignment -/

end

/-- A row of order-id purges changes the queue and the Bus Interface alone. -/
theorem foldl_purgeOrder_eq (l : List Order) (s : State) :
    ∃ q b, l.foldl (fun t o => purgeOrder o.id t) s = { s with queue := q, bus := b } := by
  induction l generalizing s with
  | nil => exact ⟨s.queue, s.bus, rfl⟩
  | cons o l ih => exact ih (purgeOrder o.id s)

section
variable {lax dirty : Prop} {P : State → Prop} (k : Kept lax dirty P)
include k

theorem Kept.foldlPurgeOrder (l : List Order) (s : State) (hs : P s) : P (l.foldl (fun t o => Machine.purgeOrder o.id t) s) := by
  induction l generalizing s with
  | nil => exact hs
  | cons o l ih => exact ih _ (k.purgeOrder o.id s hs)

theorem Kept.align (counter : Epoch) (phase : Nat) (s : State) (aligning : s.membership.state = .aligning)
    (range : ProfileInRange s → phase < epochLength s.profile) (hs : P s) : P (align counter phase s) := by
  unfold Machine.align
  dsimp only
  have purged := k.foldlPurgeOrder ((liveOrders s).filter fun o => !aheadOf counter o.target) s hs
  obtain ⟨q, b, eq⟩ := foldl_purgeOrder_eq ((liveOrders s).filter fun o => !aheadOf counter o.target) s
  rw [eq] at purged ⊢
  let dropped : State := { s with
    queue := q, bus := b
    orders := { s.orders with schedule := s.orders.schedule.dropWhere fun o => !aheadOf counter o.target } }
  have hdropped : P dropped := k.change (.dropOrders _ _ (.inr (.inl (by
    show s.membership.state ≠ .member
    rw [aligning]; decide)))) purged
  refine k.offer _ _ (by simp [isLeavingFrame, ownHello])
    (k.change (.toArriving counter phase _ dropped aligning (fun o ho => ?_) range) hdropped)
  have ho : o ∈ (s.orders.schedule.dropWhere fun o => !aheadOf counter o.target).held := ho
  rw [Table.held_dropWhere, List.mem_filter] at ho
  simpa using ho.2

/-! ### The Roster -/

theorem Kept.losePeer (n : StationNo) (how : PeerLoss) (s : State) (hs : P s) : P (losePeer n how s) := by
  unfold Machine.losePeer
  apply k.loseElector
  have gone := k.setRoster n RosterEntry.absent s (.inr (.inr rfl)) hs
  split
  · exact k.post _ _ gone
  · exact gone

theorem Kept.raisePeer (n : StationNo) (group : Option Group) (s : State)
    (recording : lax ∨ recordingState s.membership.state = true) (hs : P s) : P (raisePeer n group s) := by
  unfold Machine.raisePeer
  have raised := k.setRoster n ⟨.member, group, 0⟩ s (recording.imp_right .inl) hs
  dsimp only
  split
  · exact k.post _ _ raised
  · exact raised

theorem Kept.heardFrom (n : StationNo) (s : State) (recording : lax ∨ recordingState s.membership.state = true)
    (hs : P s) : P (heardFrom n s) :=
  k.raisePeer n _ s recording hs

theorem Kept.heardLeaving (n : StationNo) (s : State) (recording : recordingState s.membership.state = true)
    (hs : P s) : P (heardLeaving n s) := by
  unfold Machine.heardLeaving
  dsimp only
  split
  · exact k.setRoster n _ s (.inr (.inl recording)) hs
  · exact hs

/-- A change of the Membership Controller that touches neither the state, the destination, the Roster nor a count. -/
theorem Kept.records (s : State) (m : Membership) (state : m.state = s.membership.state)
    (leaving : m.leaving.isSome = s.membership.leaving.isSome) (roster : m.roster = s.membership.roster)
    (counts : m.withdrawals = s.membership.withdrawals ∧ m.memberMarks = s.membership.memberMarks ∧
      m.quiet = s.membership.quiet) (hs : P s) : P { s with membership := m } := by
  refine k.change (.membership s m state leaving roster ?_) hs
  obtain ⟨withdrawals, marks, quiet⟩ := counts
  simp only [CountsInRange, state, withdrawals, marks, quiet]
  exact id

theorem Kept.noteMismatch (n : StationNo) (d : Digest) (s : State) (hs : P s) : P (noteMismatch n d s) := by
  unfold Machine.noteMismatch
  split
  · exact hs
  · exact k.post _ _ (k.records s _ rfl rfl rfl ⟨rfl, rfl, rfl⟩ hs)

theorem Kept.noteRunningMismatch (n : StationNo) (d : Digest) (s : State) (hs : P s) :
    P (noteRunningMismatch n d s) := by
  unfold Machine.noteRunningMismatch
  split
  · exact hs
  · exact k.post _ _ (k.records s _ rfl rfl rfl ⟨rfl, rfl, rfl⟩ hs)

end

end Sys2Proof.Machine
end
section
/-! Accepted frames and the events of the Bus Interface keep what every change keeps. -/

namespace Sys2Proof.Machine

/-! ### What a LISTEN station does with a frame -/

theorem thenRoster_listen (update : State → State) {s : State} (h : s.membership.state = .listen) :
    thenRoster update s = s := by
  simp [thenRoster, h, recordingState]

theorem deliverPropose_listen (sender : StationNo) (seq : Seq) (target : Epoch) (mask : GroupMask) (tone : ToneIndex)
    (mode : PhaseMode) {s : State} (h : s.membership.state = .listen) :
    deliverPropose sender seq target mask tone mode s = s := by
  simp [deliverPropose, h]

theorem deliverVote_listen (voter origin : StationNo) (seq : Seq) (verdict : Verdict) {s : State}
    (h : s.membership.state = .listen) : deliverVote voter origin seq verdict s = s := by
  simp [deliverVote, h]

theorem deliverCommit_listen (sender : StationNo) (seq : Seq) (target : Epoch) {s : State}
    (h : s.membership.state = .listen) : deliverCommit sender seq target s = s := by
  simp [deliverCommit, h, recordingState]

theorem deliverAbort_listen (sender : StationNo) (seq : Seq) (target : Epoch) (reason : AbortReason)
    (refuser : StationNo) {s : State} (h : s.membership.state = .listen) :
    deliverAbort sender seq target reason refuser s = s := by
  simp [deliverAbort, h, recordingState]

theorem deliverLeave_listen (sender : StationNo) (reason : Cause) {s : State} (h : s.membership.state = .listen) :
    deliverLeave sender reason s = s := by
  simp [deliverLeave, h]

theorem noteMismatch_state (n : StationNo) (d : Digest) (s : State) :
    (noteMismatch n d s).membership.state = s.membership.state := by
  unfold noteMismatch; split <;> rfl

theorem enterAligning_state (sender : StationNo) (mark horizon : Epoch) (start : Nat) (s : State) :
    (enterAligning sender mark horizon start s).membership.state = .aligning := by
  simp [enterAligning, membershipCleared]

theorem enterForming_state (sender : Option (StationNo × Group)) (s : State) :
    (enterForming sender s).membership.state = .forming := by
  unfold enterForming
  rw [releaseIfComplete_membership]
  refine (congrArg (·.state) (offer_station _ _ ?_).2).trans ?_ <;> rfl

theorem deliverEpoch_listen_state (sender : StationNo) (mark horizon : Epoch) (digest : Digest)
    (start : Nat × Option Epoch) {s : State} (h : s.membership.state = .listen) :
    gridState (deliverEpoch sender mark horizon digest start s).membership.state = false := by
  unfold deliverEpoch
  rw [h]
  cases digestMatches s digest
  · dsimp only; rw [noteMismatch_state, h]; rfl
  · dsimp only; rw [enterAligning_state]; rfl

theorem deliverHello_listen_state (sender : StationNo) (state : HelloState) (group : Group) (digest : Digest) {s : State}
    (h : s.membership.state = .listen) :
    gridState (deliverHello sender state group digest s).membership.state = false := by
  unfold deliverHello
  rw [h]
  cases digestMatches s digest <;> cases state <;> dsimp only
  case false.forming => rw [noteMismatch_state, h]; rfl
  case true.forming => rw [enterForming_state]; rfl
  all_goals rw [h]; rfl

theorem aheadOf_iff (x y : Epoch) : aheadOf x y = true ↔ 1 ≤ epochDistance x y ∧ epochDistance x y ≤ 32767 := by
  simp [aheadOf]

theorem ownId_ne_of_foreign {sender : StationNo} {s : State} (foreign : sender ≠ ownNumber s) (q seq : Seq) :
    ownId s q ≠ ⟨sender, seq⟩ := by
  intro h
  injection h with origin
  exact foreign origin.symm

theorem align_state (counter : Epoch) (phase : Nat) (s : State) (h : s.membership.leaving = none) :
    (align counter phase s).membership.state = .arriving := by
  unfold align
  dsimp only
  obtain ⟨q, b, eq⟩ := foldl_purgeOrder_eq ((liveOrders s).filter fun o => !aheadOf counter o.target) s
  rw [eq]
  refine (congrArg (·.state) (offer_station _ _ ?_).2).trans ?_
  · exact h
  · rfl

theorem losePeer_state (n : StationNo) (how : PeerLoss) (s : State) (h : s.membership.leaving = none) :
    (losePeer n how s).membership.state = s.membership.state := by
  unfold losePeer
  rw [(loseElector_station n _ (by split <;> simp [h])).2]
  split <;> simp

section
variable {lax dirty : Prop} {P : State → Prop} (k : Kept lax dirty P)
include k

/-! ### Deliveries -/

theorem Kept.deliverPropose (sender : StationNo) (seq : Seq) (target : Epoch) (mask : GroupMask) (tone : ToneIndex)
    (mode : PhaseMode) (s : State) (hs : P s) : P (deliverPropose sender seq target mask tone mode s) := by
  have observed : recordingState s.membership.state = true →
      (s.membership.state = .aligning ∨ ∀ g ∈ s.timer.grid, aheadOf g.counter target = true) →
      P (if canRecord s ⟨sender, seq⟩ target then
          Machine.addOrder (proposedOrder sender seq target mask tone mode .none) s
        else Machine.alignFailed .cannotRecord s) := by
    intro recording ahead
    split
    case isTrue can =>
      simp only [canRecord, Bool.and_eq_true, decide_eq_true_eq, Option.isNone_iff_eq_none] at can
      obtain ⟨⟨-, id⟩, clash⟩ := can
      exact k.change (.addOrder _ s recording
        (fun x hx => ⟨orderWithId_none.mp id x hx, orderWithTarget_none.mp clash x hx⟩) ahead) hs
    case isFalse => exact k.alignFailed _ s hs
  unfold Machine.deliverPropose
  split
  case h_1 member =>
    split
    case h_1 verdict =>
      refine k.offer _ _ (by simp [isLeavingFrame]) ?_
      unfold judgePropose at verdict
      split_ifs at verdict with stranger dupId late noTone clash full
      rw [Option.not_isSome_iff_eq_none] at dupId clash
      refine k.change (.addOrder _ s (by rw [member]; rfl)
        (fun x hx => ⟨orderWithId_none.mp dupId x hx, orderWithTarget_none.mp clash x hx⟩) (.inr fun g hg => ?_)) hs
      have hg : s.timer.grid = some g := hg
      simp only [leadAccepted, nowEpoch, hg, Option.map_some, Option.getD_some, Bool.not_eq_true, Bool.not_eq_false',
        Bool.and_eq_true, decide_eq_true_eq] at late
      exact (aheadOf_iff ..).mpr ⟨le_trans (by omega) late.1, late.2⟩
    case h_2 => exact k.offer _ _ (by simp [isLeavingFrame]) hs
  case h_2 arriving =>
    dsimp only
    split
    case isTrue lead =>
      refine observed (by rw [arriving]; rfl) (.inr fun g hg => ?_)
      have hg : s.timer.grid = some g := hg
      simp only [nowEpoch, hg, Option.map_some, Option.getD_some] at lead
      exact (aheadOf_iff ..).mpr ⟨by omega, lead.2⟩
    case isFalse => exact hs
  case h_3 aligning => exact observed (by rw [aligning]; rfl) (.inl aligning)
  case h_4 => exact hs

theorem Kept.deliverVote (voter origin : StationNo) (seq : Seq) (verdict : Verdict) (s : State) (hs : P s) :
    P (deliverVote voter origin seq verdict s) := by
  unfold Machine.deliverVote
  split
  case isFalse => exact hs
  case isTrue =>
    split
    case h_1 => exact hs
    case h_2 b found =>
      split
      case h_1 =>
        split
        case isTrue elector =>
          refine k.checkBallot _ _ (k.change (.updateBallot _ _ b s found ⟨rfl, rfl⟩ (fun part => ?_) .inl) hs)
          rw [subset_iff] at part ⊢
          intro n hn
          rw [inSet_addTo, Bool.or_eq_true, decide_eq_true_eq] at hn
          rcases hn with hn | rfl
          · exact part n hn
          · exact elector.2
        case isFalse => exact hs
      case h_2 =>
        split
        · exact hs
        · exact k.abortOwn _ _ (by simp) _ _ hs

theorem Kept.deliverCommit (sender : StationNo) (seq : Seq) (target : Epoch) (s : State)
    (own : dirty ∨ sender ≠ ownNumber s) (hs : P s) : P (deliverCommit sender seq target s) := by
  unfold Machine.deliverCommit
  split
  case isFalse => exact hs
  case isTrue =>
    split
    case h_1 =>
      split
      · exact k.change (.updateOrder _ _ s (fun _ => ⟨rfl, rfl⟩)
          (own.imp_right fun foreign => .inr fun b _ => ownId_ne_of_foreign foreign b.seq seq)) hs
      · exact hs
    case h_2 => exact k.post _ _ hs

theorem Kept.deliverAbort (sender : StationNo) (seq : Seq) (target : Epoch) (reason : AbortReason) (refuser : StationNo)
    (s : State) (own : dirty ∨ sender ≠ ownNumber s) (hs : P s) : P (deliverAbort sender seq target reason refuser s) := by
  unfold Machine.deliverAbort
  split
  case isFalse => exact hs
  case isTrue =>
    split
    case h_1 =>
      refine k.post _ _ (k.purgeOrder _ _ (k.change (.dropOrders _ s (own.imp_right fun foreign => .inr ?_)) hs))
      intro b _ o ho same
      exact ownId_ne_of_foreign foreign b.seq seq (same ▸ beq_iff_eq.mp ho)
    case h_2 => exact hs

theorem Kept.checkEpoch (sender : StationNo) (mark : Epoch) (start : Option Epoch) (s : State)
    (recording : recordingState s.membership.state = true) (hs : P s) : P (checkEpoch sender mark start s) := by
  unfold Machine.checkEpoch
  split
  · exact k.withdrawIf _ _ (k.heardFrom _ _ (.inr (by simpa using recording)) (k.post _ _ (k.countTally _ s hs)))
  · dsimp only
    split
    · exact k.heardFrom _ _ (.inr recording) (k.purgeWhere _ s hs)
    · exact k.heardFrom _ _ (.inr recording) hs

/-- Where the property shuts it out, no destination is remembered outside LEAVING. -/
theorem Kept.leaving_none {s : State} (hs : P s) (h : s.membership.state ≠ .leaving) :
    lax ∨ s.membership.leaving = none := by
  refine k.leaving.imp_right fun strict => ?_
  by_contra some
  exact h (strict s hs (Option.isSome_iff_ne_none.mpr some))

theorem Kept.referenceEpoch (sender : StationNo) (mark : Epoch) (start : Nat) (s : State)
    (aligning : s.membership.state = .aligning) (hs : P s) : P (referenceEpoch sender mark start s) := by
  unfold Machine.referenceEpoch
  let referred : State := { s with timer := { s.timer with reference := some ⟨mark, start⟩, endedPulse := none } }
  have hreferred : P referred := k.change (.timer s _ rfl
    (fun ⟨grid, formation, transient, _⟩ => ⟨grid, formation, transient, fun _ => aligning⟩) id) hs
  have recording : recordingState s.membership.state = true := by rw [aligning]; rfl
  dsimp only
  split
  case h_1 fall _ =>
    split
    · refine k.heardFrom _ _ ?_ (k.align _ _ referred aligning (fun _ => Nat.mod_lt _ (Nat.two_pow_pos _)) hreferred)
      refine (k.leaving_none hs (by rw [aligning]; decide)).imp_right fun none => ?_
      rw [align_state _ _ referred none]; rfl
    · exact k.heardFrom _ _ (.inr recording) hreferred
  case h_2 => exact k.heardFrom _ _ (.inr recording) hreferred

theorem Kept.deliverEpoch (sender : StationNo) (mark horizon : Epoch) (digest : Digest) (start : Nat × Option Epoch)
    (s : State) (hs : P s) : P (deliverEpoch sender mark horizon digest start s) := by
  unfold Machine.deliverEpoch
  split
  case h_1 listen _ => exact k.enterAligning _ _ _ _ s (.inl listen) hs
  case h_2 => exact k.noteMismatch _ _ _ (k.records s _ rfl rfl rfl ⟨rfl, rfl, rfl⟩ hs)
  case h_3 forming _ => exact k.enterAligning _ _ _ _ s (.inr forming) hs
  case h_4 => exact k.noteMismatch _ _ s hs
  case h_5 aligning _ => exact k.referenceEpoch _ _ _ s aligning hs
  case h_6 => exact k.noteRunningMismatch _ _ s hs
  case h_7 arriving _ => exact k.checkEpoch _ _ _ s (by rw [arriving]; rfl) hs
  case h_8 => exact k.noteRunningMismatch _ _ s hs
  case h_9 member _ => exact k.checkEpoch _ _ _ s (by rw [member]; rfl) hs
  case h_10 => exact k.noteRunningMismatch _ _ s hs
  case h_11 => exact hs

theorem Kept.joinFormation (sender : StationNo) (group : Group) (s : State) (hs : P s) :
    P (joinFormation sender group s) := by
  unfold Machine.joinFormation
  have added := k.records s { s.membership with formation := formationWith sender group s.membership.formation }
    rfl rfl rfl ⟨rfl, rfl, rfl⟩ hs
  dsimp only
  split
  · exact added
  · exact k.releaseIfComplete _ (k.offer _ _ (by simp [isLeavingFrame, ownHello]) added)

theorem Kept.rosterHello (sender : StationNo) (state : HelloState) (group : Group) (s : State)
    (recording : recordingState s.membership.state = true) (hs : P s) : P (rosterHello sender state group s) := by
  unfold Machine.rosterHello
  split
  case h_1 =>
    split
    · exact k.losePeer _ _ s hs
    · exact hs
  case h_2 =>
    split
    · refine k.setRoster _ _ _ ?_ (k.losePeer _ _ s hs)
      refine (k.leaving_none hs fun h => by rw [h] at recording; cases recording).imp_right fun none => .inl ?_
      rw [losePeer_state _ _ s none]; exact recording
    · exact k.setRoster _ _ s (.inr (.inl recording)) hs
  case h_3 => exact k.raisePeer _ _ s (.inr recording) hs

theorem Kept.runningHello (sender : StationNo) (state : HelloState) (group : Group) (s : State)
    (recording : recordingState s.membership.state = true) (hs : P s) : P (runningHello sender state group s) := by
  unfold Machine.runningHello
  dsimp only
  split
  · exact k.offer _ _ (by simp [isLeavingFrame, ownHello]) (k.rosterHello _ _ _ s recording hs)
  · exact k.rosterHello _ _ _ s recording hs

theorem Kept.deliverHello (sender : StationNo) (state : HelloState) (group : Group) (digest : Digest) (s : State)
    (hs : P s) : P (deliverHello sender state group digest s) := by
  unfold Machine.deliverHello
  split
  case h_1 listen _ => exact k.enterForming _ s listen hs
  case h_2 => exact k.noteMismatch _ _ s hs
  case h_3 => exact hs
  case h_4 => exact k.joinFormation _ _ s hs
  case h_5 => exact hs
  case h_6 => exact k.noteMismatch _ _ s hs
  case h_7 aligning _ => exact k.runningHello _ _ _ s (by rw [aligning]; rfl) hs
  case h_8 => exact k.noteRunningMismatch _ _ s hs
  case h_9 arriving _ => exact k.runningHello _ _ _ s (by rw [arriving]; rfl) hs
  case h_10 => exact k.noteRunningMismatch _ _ s hs
  case h_11 member _ => exact k.runningHello _ _ _ s (by rw [member]; rfl) hs
  case h_12 => exact k.noteRunningMismatch _ _ s hs
  case h_13 => exact hs

theorem Kept.deliverLeave (sender : StationNo) (reason : Cause) (s : State) (hs : P s) :
    P (deliverLeave sender reason s) := by
  have lost : P (if isPresent (rosterEntry s sender) then Machine.losePeer sender (.left reason) s else s) := by
    split
    · exact k.losePeer _ _ s hs
    · exact hs
  unfold Machine.deliverLeave
  split
  case h_1 =>
    split
    · exact hs
    · exact k.records s _ rfl rfl rfl ⟨rfl, rfl, rfl⟩ hs
  case h_2 => exact lost
  case h_3 => exact lost
  case h_4 => exact lost
  case h_5 => exact hs

theorem Kept.accepted (sender : StationNo) (p : Payload) (deliver : State → State) (s : State)
    (hdeliver : P (deliver (Machine.frameEnds s)))
    (silent : s.membership.state = .listen → gridState (deliver (Machine.frameEnds s)).membership.state = false)
    (hs : P s) : P (accepted sender p deliver s) := by
  unfold Machine.accepted
  split
  case isFalse => exact hs
  case isTrue =>
    dsimp only
    split
    · exact k.duplicateNumber _ _ silent hdeliver
    · exact hdeliver

/-! ### The other events of the Bus Interface -/

theorem Kept.failFrame (s : State) (hs : P s) : P (failFrame s).1 :=
  k.countTally _ _ (k.busSame s _ (.inr rfl) id id hs)

theorem Kept.endsUnread (s : State) (hs : P s) : P (endsUnread s) := by
  unfold Machine.endsUnread; split
  · exact hs
  · exact k.frameEnds s hs

theorem Kept.reportSpoiled (p : Payload) (s : State) (hs : P s) : P (reportSpoiled p s) := by
  unfold Machine.reportSpoiled
  split
  · split
    · split
      · exact k.abortOwn _ _ (by simp) _ s hs
      · exact hs
    · exact hs
  · split
    · split
      · exact k.abortOwn _ _ (by simp) _ s hs
      · exact hs
    · exact hs
  · exact hs

theorem Kept.reportLostAcrossClose (p : Payload) (s : State) (hs : P s) : P (reportLostAcrossClose p s) := by
  unfold Machine.reportLostAcrossClose
  split
  · split
    · split
      · exact k.abortOwn _ _ (by simp) _ s hs
      · exact hs
    · exact hs
  · split
    · split
      · exact k.abortOwn _ _ (by simp) _ s hs
      · exact hs
    · exact hs
  · exact hs

theorem Kept.spoilAttempt (a : Sending) (s : State) (hs : P s) : P (spoilAttempt a s) := by
  unfold Machine.spoilAttempt
  have counted := k.countTally .spoil _ (k.attemptOver s hs)
  dsimp only
  split
  · exact k.withdrawIf _ _ (k.loseFrame _ _ (k.postDropped _ _ _ (k.clearAttempts _ counted)))
  · split
    case isTrue more =>
      exact k.withdrawIf _ _ (k.removeIf _ _ _ (k.reportSpoiled _ _ (k.busSame _ _ (.inr rfl) id (fun _ => more) counted)))
    case isFalse =>
      exact k.withdrawIf _ _ (k.loseFrame _ _ (k.clearAttempts _ (k.removeFrame _ _ (k.postDropped _ _ _
        (k.countTally _ _ counted)))))

theorem Kept.proposeTransmitted (seq : Seq) (target : Epoch) (s : State) (hs : P s) :
    P (proposeTransmitted seq target s) := by
  unfold Machine.proposeTransmitted
  split
  case h_1 => exact hs
  case h_2 b found =>
    split
    case isFalse => exact hs
    case isTrue =>
      split
      · exact k.abortOwn _ _ (by simp) _ s hs
      · refine k.checkBallot _ _ (k.change (.updateBallot _ _ b s found ⟨rfl, rfl⟩ (fun _ => ?_) (fun own => .inr ?_)) hs)
        · rw [subset_iff]; intro n hn; rw [inSet_zero] at hn; cases hn
        · dsimp only at own
          rw [inSet_setWhere] at own
          exact beq_iff_eq.mp own

theorem Kept.commitTransmitted (seq : Seq) (target : Epoch) (s : State) (hs : P s) :
    P (commitTransmitted seq target s) := by
  have freed := k.change (.freeBallot seq s) hs
  unfold Machine.commitTransmitted
  split
  case h_1 => exact hs
  case h_2 =>
    split
    case isFalse => exact hs
    case isTrue =>
      split
      · exact freed
      · refine k.post _ _ (k.change (.updateOrder (ownId s seq) (fun o => { o with state := .ready })
          (Machine.freeBallot seq s) (fun _ => ⟨rfl, rfl⟩) (.inr (.inr fun b hb same => ?_))) freed)
        rw [openBallots_freeBallot, List.mem_filter] at hb
        have : b.seq = seq := congrArg OrderId.seq same
        simp [this] at hb

theorem Kept.transmitted (a : Sending) (s : State) (hs : P s) : P (transmitted a s) := by
  unfold Machine.transmitted
  have removed := k.removeFrame a.ident _ (k.clearAttempts _ (k.attemptOver s hs))
  dsimp only
  generalize Machine.removeFrame a.ident (Machine.clearAttempts (Machine.attemptOver s)) = r at *
  have told : P (if r.membership.state = .member then { r with membership := { r.membership with quiet := 0 } } else r) := by
    split
    case isTrue member =>
      refine k.change (.membership r _ rfl rfl rfl ?_) removed
      rintro ⟨idle, attempts, withdrawals, marks, -, -⟩
      exact ⟨idle, attempts, withdrawals, marks, Nat.zero_le _, fun h => absurd member h⟩
    case isFalse => exact removed
  split
  · exact k.proposeTransmitted _ _ _ told
  · exact k.commitTransmitted _ _ _ told
  · exact k.endLeaving _ told
  · exact told

end

/-- The frame that selection names is held. -/
theorem mem_of_selectFrame {s : State} {e : QueueEntry} (h : selectFrame s = some e) : e ∈ s.queue.entries := by
  have chosen : ∀ (l : List QueueEntry) (best : Option QueueEntry) (e : QueueEntry),
      l.foldl (fun best e => match best with
        | none => some e
        | some b => if goesBefore e b then some e else some b) best = some e → best = some e ∨ e ∈ l := by
    intro l
    induction l with
    | nil => exact fun best e h => .inl h
    | cons a l ih =>
      intro best e h
      rcases ih _ e h with start | later
      · cases best with
        | none => exact .inr (by simp_all)
        | some b =>
          dsimp only at start
          split at start
          · exact .inr (by simp_all)
          · exact .inl start
      · exact .inr (List.mem_cons_of_mem _ later)
  rcases chosen _ none e h with absurd | found
  · cases absurd
  · exact List.mem_of_mem_filter found

section
variable {lax dirty : Prop} {P : State → Prop} (k : Kept lax dirty P)
include k

theorem Kept.attemptStart (s : State) (hs : P s) {t : State} (h : execAttemptStart s = .next t) : P t := by
  obtain rfl := Host.Outcome.next.inj h
  split
  case isFalse => exact hs
  case isTrue =>
    split
    case h_1 => exact hs
    case h_2 e found =>
      refine k.change (.bus s _ (fun a ha => .inr ⟨e, mem_of_selectFrame found, ?_⟩) id (fun h => ?_)) hs
      · obtain rfl := Option.some.inj ha; rfl
      · dsimp only; split
        · exact h
        · decide

theorem Kept.frameFailed (s : State) (hs : P s) {t : State} (h : execFrameFailed s = .next t) : P t := by
  obtain rfl := Host.Outcome.next.inj h
  split
  case isFalse => exact hs
  case isTrue =>
    have ended := k.endsUnread s hs
    split
    case isFalse => exact ended
    case isTrue =>
      dsimp only
      split
      · exact k.withdrawIf _ _ (k.failFrame _ ended)
      · exact k.busSame _ _ (.inr rfl) id id (k.failFrame _ ended)

theorem Kept.receiveError (s : State) (hs : P s) {t : State} (h : execReceiveError s = .next t) : P t := by
  obtain rfl := Host.Outcome.next.inj h
  split
  · dsimp only
    split
    · exact k.alignFailed _ _ (k.frameEnds s hs)
    · exact k.frameEnds s hs
  · exact hs

theorem Kept.spoiledFrame (s : State) (hs : P s) {t : State} (h : execSpoiledFrame s = .next t) : P t := by
  obtain rfl := Host.Outcome.next.inj h
  split
  · exact k.frameEnds s hs
  · exact hs

theorem Kept.arbitrationLost (s : State) (hs : P s) {t : State} (h : execArbitrationLost s = .next t) : P t := by
  obtain rfl := Host.Outcome.next.inj h
  split
  · exact hs
  · split
    · split
      · exact k.loseFrame _ _ (k.postDropped _ _ _ (k.attemptOver s hs))
      · exact k.removeIf _ _ _ (k.reportLostAcrossClose _ _ (k.attemptOver s hs))
    · exact hs

theorem Kept.bitMonitorMismatch (inStart : Bool) (s : State) (hs : P s) {t : State}
    (h : execBitMonitorMismatch inStart s = .next t) : P t := by
  obtain rfl := Host.Outcome.next.inj h
  split
  · exact hs
  case h_2 a ha =>
    split
    · split
      · refine k.spoilAttempt _ _ ?_
        split
        · exact k.busSame s _ (.inr rfl) (fun _ => Nat.min_le_right ..) id hs
        · exact hs
      · exact hs
    · split
      · refine k.change (.bus s _ (fun x hx => .inl ⟨a, ha, ?_⟩) id id) hs
        obtain rfl := Option.some.inj hx; rfl
      · exact hs

theorem Kept.frameTransmitted (s : State) (hs : P s) {t : State} (h : execFrameTransmitted s = .next t) : P t := by
  obtain rfl := Host.Outcome.next.inj h
  split
  · exact hs
  · split
    · exact k.spoilAttempt _ _ (k.frameEnds s hs)
    · split
      · exact k.transmitted _ _ (k.frameEnds s hs)
      · exact hs

theorem Kept.attemptSpoiled (s : State) (hs : P s) {t : State} (h : execAttemptSpoiled s = .next t) : P t := by
  obtain rfl := Host.Outcome.next.inj h
  split
  · exact hs
  · split
    · exact k.spoilAttempt _ _ (k.frameEnds s hs)
    · exact hs

theorem Kept.cdFall (s : State) (hs : P s) {t : State} (h : execCdFall s = .next t) : P t := by
  obtain rfl := Host.Outcome.next.inj h
  split
  · exact k.busSame s _ (.inr rfl) id id hs
  · exact hs

end

/-- A slot read outside a frame changes the idle count alone, to at most 6. -/
theorem slotOutside_keeps (cd : Level) (b : BusInterface) :
    (slotOutside cd b).sending = b.sending ∧ (slotOutside cd b).attempts = b.attempts ∧
      (slotOutside cd b).idleCount ≤ 6 := by
  cases cd
  · exact ⟨rfl, rfl, Nat.zero_le _⟩
  · exact ⟨rfl, rfl, Nat.min_le_right ..⟩

theorem slotInside_keeps (cd : Level) (r : Reading) (b : BusInterface) :
    (slotInside cd r b).sending = b.sending ∧ (slotInside cd r b).attempts = b.attempts ∧
      (b.idleCount ≤ 6 → (slotInside cd r b).idleCount ≤ 6) := by
  unfold slotInside
  split
  · obtain ⟨sending, attempts, idle⟩ := slotOutside_keeps cd { b with reading := none }
    exact ⟨sending, attempts, fun _ => idle⟩
  · exact ⟨rfl, rfl, id⟩

theorem Kept.slotReading {lax dirty : Prop} {P : State → Prop} (k : Kept lax dirty P) (cd : Level) (s : State) (hs : P s)
    {t : State} (h : execSlotReading cd s = .next t) : P t := by
  obtain rfl := Host.Outcome.next.inj h
  split
  case isFalse => exact hs
  case isTrue =>
    dsimp only
    split
    case h_1 =>
      obtain ⟨sending, attempts, idle⟩ := slotOutside_keeps cd { s.bus with slotRead := true }
      exact k.busSame s _ (.inr sending) (fun _ => idle) (fun h => by rw [attempts]; exact h) hs
    case h_2 r _ =>
      obtain ⟨sending, attempts, idle⟩ := slotInside_keeps cd r { s.bus with slotRead := true }
      exact k.busSame s _ (.inr sending) idle (fun h => by rw [attempts]; exact h) hs

end Sys2Proof.Machine
end
section
/-! The named points, the edges of CH and the ends of the spans keep what every change keeps, and with them every command but
a request, a reset and a reference clock. -/

namespace Sys2Proof.Machine

section
variable {lax dirty : Prop} {P : State → Prop} (k : Kept lax dirty P)
include k

/-! ### The boundary -/

theorem Kept.voteClose (s : State) (hs : P s) : P (voteClose s) := by
  unfold Machine.voteClose
  split
  case h_1 => exact hs
  case h_2 =>
    split
    · split
      · exact k.purgeWhere _ s hs
      · exact k.abortOwn _ _ (by simp) _ s hs
    · exact k.abortOwn _ _ (by simp) _ s hs
    · split
      · exact k.purgeWhere _ s hs
      · exact k.abortOwn _ _ (by simp) _ s hs

theorem Kept.postIfLive (before : OutputState) (s : State) (hs : P s) : P (postIfLive before s) := by
  unfold Machine.postIfLive; split
  · exact k.post _ s hs
  · exact hs

theorem Kept.takeTone (i : ToneIndex) (mode : PhaseMode) (b : Bool) (s : State)
    (grid : gridState s.membership.state = true) (hs : P s) :
    P { s with carrier := Machine.takeTone i mode b s.carrier } := by
  refine k.change (.carrier s _ rfl ?_) hs
  rintro ⟨-, port, delay⟩
  refine ⟨fun absurd => ?_, fun nonzero => ?_, delay⟩
  · have : gridState s.membership.state = false := absurd
    rw [grid] at this; cases this
  · obtain ⟨member, synced⟩ := port nonzero
    exact ⟨member, by simp [Machine.takeTone, synced]⟩

theorem Kept.applyTone (i : ToneIndex) (mode : PhaseMode) (b : Bool) (s : State)
    (grid : gridState s.membership.state = true) (hs : P s) : P (applyTone i mode b s) := by
  unfold Machine.applyTone
  split
  case isTrue => exact k.postIfLive _ _ (k.takeTone i mode b s grid hs)
  case isFalse =>
    refine k.change (.carrier s (silenceCarrier s.carrier) rfl ?_) hs
    rintro ⟨-, -, delay⟩
    refine ⟨fun absurd => ?_, fun nonzero => absurd rfl nonzero, delay⟩
    have : gridState s.membership.state = false := absurd
    rw [grid] at this; cases this

/-- The order whose target is the new epoch leaves the Schedule; what follows is a notice and a change of the carrier. -/
theorem Kept.fireDue_of (s : State) (none : orderWithTarget s (nowEpoch s) = none → P s)
    (retired : ∀ o, orderWithTarget s (nowEpoch s) = some o → P (Machine.retireOrder o.id s)) : P (fireDue s) := by
  unfold Machine.fireDue
  split
  case h_1 h => exact none h
  case h_2 o h =>
    have fired := fun r => k.post r _ (retired o h)
    dsimp only
    split
    case isTrue applied =>
      refine k.applyTone _ _ _ _ ?_ (fired _)
      simp only [appliesHere, Bool.and_eq_true] at applied
      simpa using applied.2.2
    case isFalse => exact fired _

theorem Kept.fireDue (s : State) (hs : P s) : P (fireDue s) :=
  k.fireDue_of s (fun _ => hs) fun o _ => k.retireOrder o.id s hs

theorem Kept.clearBlindHorizon (s : State) (hs : P s) : P (clearBlindHorizon s) :=
  k.records s _ rfl rfl rfl ⟨rfl, rfl, rfl⟩ hs

theorem Kept.countSilence (s : State) (hs : P s) : P (countSilence s) := by
  unfold Machine.countSilence
  have lost : ∀ (l : List StationNo) (t : State), P t → P (l.foldl (fun t n => Machine.losePeer n .silent t) t) := by
    intro l
    induction l with
    | nil => exact fun t h => h
    | cons n l ih => exact fun t h => ih _ (k.losePeer n _ t h)
  refine lost _ _ (k.change (.roster s _ (fun own => ?_) (.inr (.inr fun n hn => ?_))) hs)
  · rw [Table.get_map]
    have : s.membership.roster.get (ownNumber s) = RosterEntry.absent := own
    rw [this]; rfl
  · rw [Table.get_map]
    have : s.membership.roster.get n = RosterEntry.absent := hn
    rw [this]; rfl

theorem Kept.countQuiet (s : State) (hs : P s) : P (countQuiet s) := by
  unfold Machine.countQuiet
  split
  case isFalse => exact hs
  case isTrue member =>
    have counted : P { s with membership :=
        { s.membership with quiet := min (s.membership.quiet + 1) s.profile.silenceLimit } } := by
      refine k.change (.membership s _ rfl rfl rfl ?_) hs
      rintro ⟨idle, attempts, withdrawals, marks, -, -⟩
      exact ⟨idle, attempts, withdrawals, marks, Nat.min_le_right .., fun h => absurd member h⟩
    dsimp only
    split
    · exact k.offer _ _ (by simp [isLeavingFrame, ownHello]) counted
    · exact counted

theorem Kept.countMemberMark (s : State) (hs : P s) : P (countMemberMark s) := by
  unfold Machine.countMemberMark
  split
  case isFalse => exact hs
  case isTrue member =>
    refine k.change (.membership s _ rfl rfl rfl ?_) hs
    rintro ⟨idle, attempts, withdrawals, -, quiet, -⟩
    refine ⟨idle, attempts, ?_, Nat.min_le_right .., quiet, fun h => absurd member h⟩
    dsimp only
    split
    · exact Nat.zero_le _
    · exact withdrawals

theorem Kept.markBoundary (s : State) (hs : P s) : P (markBoundary s) := by
  unfold Machine.markBoundary
  exact k.countMemberMark _ (k.countQuiet _ (k.countSilence _ (k.purgeWhere _ _
    (k.records s { s.membership with runningMismatch := 0 } rfl rfl rfl ⟨rfl, rfl, rfl⟩ hs))))

theorem Kept.epochBoundary (ch : Level) (s : State)
    (boundary : ∀ g, s.timer.grid = some g → g.due = true →
      P (Machine.fireDue (Machine.voteClose (advanceEpoch g ch s)))) (hs : P s) {t : State}
    (h : execEpochBoundary ch s = .next t) : P t := by
  obtain rfl := Host.Outcome.next.inj h
  split
  case h_1 => exact hs
  case h_2 g hg =>
    dsimp only
    split
    case isTrue => exact hs
    case isFalse due =>
      have acted := k.clearBlindHorizon _ (boundary g hg (by simpa using due))
      split
      · exact k.markBoundary _ acted
      · exact acted

/-! ### The other named points -/

/-- A change of the Epoch Timer in a state with a counter that keeps the counter, the phase and the records of ALIGNING. -/
theorem Kept.timerFewer (s : State) (t : EpochTimer) (g : Grid) (point : Nat) (hg : s.timer.grid = some g)
    (grid : t.grid = some { g with point := point }) (hpoint : point ≤ g.point ∨ point ≤ g.phase)
    (formation : t.claims.formation = true → s.timer.claims.formation = true)
    (aligning : t.reference = s.timer.reference ∧ t.pulseFall = s.timer.pulseFall ∧
      t.endedPulse = s.timer.endedPulse) (hs : P s) : P { s with timer := t } := by
  obtain ⟨reference, pulseFall, endedPulse⟩ := aligning
  refine k.change (.timer s t (by rw [hg, grid]; rfl) ?_ ?_) hs
  · rintro ⟨present, claim, -, transient⟩
    rw [hg] at present
    refine ⟨by rw [grid]; exact present, fun h => claim (formation h), fun _ => present.symm, ?_⟩
    rw [reference, pulseFall, endedPulse]; exact transient
  · intro range g' hg'
    obtain rfl := Option.some.inj (grid.symm.trans hg')
    obtain ⟨phase, before, due⟩ := range g hg
    refine ⟨phase, ?_, due⟩
    rcases hpoint with h | h
    · exact le_trans h before
    · exact h

theorem Kept.atPoint (g : Grid) (point : Nat) (s : State) (hg : s.timer.grid = some g) (reached : pointReached g point = true)
    (hs : P s) : P (atPoint g point s) := by
  refine k.timerFewer s _ g point hg rfl (.inr ?_) id ⟨rfl, rfl, rfl⟩ hs
  simp only [pointReached, Bool.and_eq_true, beq_iff_eq] at reached
  exact reached.2.ge

theorem Kept.markRelease (ch : Level) (s : State) (hs : P s) {t : State} (h : execMarkRelease ch s = .next t) : P t := by
  obtain rfl := Host.Outcome.next.inj h
  split
  case h_1 => exact hs
  case h_2 g hg =>
    split
    case isFalse => exact hs
    case isTrue taken =>
      obtain ⟨-, reached⟩ := taken
      have hphase : releasePhase s.profile ≤ g.phase := by
        simp only [pointReached, Bool.and_eq_true, beq_iff_eq] at reached
        exact reached.2.ge
      dsimp only
      split
      · exact k.withdraw _ _ (k.timerFewer s _ g _ hg rfl (.inr hphase) id ⟨rfl, rfl, rfl⟩ hs)
      · have released := k.timerFewer s
          { (Machine.atPoint g (releasePhase s.profile) s).timer with
            claims := { s.timer.claims with mark := false }
            provisional := s.timer.provisional.map fun r => { r with released := some s.clock } }
          g _ hg rfl (.inr hphase) id ⟨rfl, rfl, rfl⟩ hs
        unfold offerEpoch
        split
        · exact k.offer _ _ (by simp [isLeavingFrame]) released
        · exact released

theorem Kept.vetoPoint (s : State) (hs : P s) {t : State} (h : execVetoPoint s = .next t) : P t := by
  obtain rfl := Host.Outcome.next.inj h
  split
  case h_1 => exact hs
  case h_2 g hg =>
    split
    case isFalse => exact hs
    case isTrue reached =>
      refine k.timerFewer s _ g (vetoPhase s.profile) hg rfl (.inr ?_) id ⟨rfl, rfl, rfl⟩ hs
      simp only [pointReached, Bool.and_eq_true, beq_iff_eq] at reached
      exact reached.2.ge

theorem Kept.vetoRelease (s : State) (hs : P s) {t : State} (h : execVetoRelease s = .next t) : P t := by
  obtain rfl := Host.Outcome.next.inj h
  split
  case h_1 => exact hs
  case h_2 g hg =>
    split
    case isFalse => exact hs
    case isTrue reached =>
      refine k.timerFewer s _ g (vetoReleasePhase s.profile) hg rfl (.inr ?_) id ⟨rfl, rfl, rfl⟩ hs
      simp only [pointReached, Bool.and_eq_true, beq_iff_eq] at reached
      exact reached.2.ge

theorem Kept.decideOrder (ch : Level) (o : Order) (s : State) (hs : P s) : P (decideOrder ch o s) := by
  unfold Machine.decideOrder
  split
  · exact k.post _ _ (k.retireOrder _ s hs)
  · split
    · exact hs
    · exact k.change (.updateOrder _ _ s (fun _ => ⟨rfl, rfl⟩) (.inr (.inl fun _ => rfl))) hs

/-- The mark reading is kept or discarded. -/
theorem Kept.provisionalNone (s : State) (last : Option MarkReading) (hs : P s) :
    P { s with timer := { s.timer with provisional := none, lastReading := last } } := by
  refine k.change (.timer s _ rfl (fun ⟨present, claim, transient, aligning⟩ => ⟨present, claim, fun h => transient ?_, aligning⟩)
    id) hs
  rcases h with h | h | h | h
  · exact .inl h
  · exact .inr (.inl h)
  · cases h
  · exact .inr (.inr (.inr h))

theorem Kept.becomeMember (lead : Nat) (s : State) (arriving : s.membership.state = .arriving) (hs : P s) :
    P (becomeMember lead s) := by
  unfold Machine.becomeMember
  split
  case isTrue =>
    refine k.postIfLive _ _ (k.post _ _ (k.change (.membership _ _ rfl rfl rfl ?_)
      (k.offer _ _ (by simp [isLeavingFrame, ownHello]) (k.change (.toMember s arriving) hs))))
    rintro ⟨idle, attempts, withdrawals, marks, -, others⟩
    exact ⟨idle, attempts, withdrawals, marks, Nat.zero_le _, fun h => ⟨(others h).1, rfl⟩⟩
  case isFalse => exact k.alignFailed _ s hs

theorem Kept.keepReading (r : Provisional) (s : State) (hs : P s) : P (keepReading r s) := by
  unfold Machine.keepReading
  have kept := k.provisionalNone s (some ⟨r.mark, r.lead, r.lag.getD (eighth s.profile)⟩) hs
  dsimp only
  have checked : P (if s.profile.skewWindow < r.lead + r.lag.getD (eighth s.profile) then
      Machine.withdrawIf (Machine.countTally .skew { s with timer := { s.timer with
          provisional := none, lastReading := some ⟨r.mark, r.lead, r.lag.getD (eighth s.profile)⟩ } }).2
        (Machine.post (.skewWide r.lead (r.lag.getD (eighth s.profile))) (Machine.countTally .skew { s with timer := { s.timer with
          provisional := none, lastReading := some ⟨r.mark, r.lead, r.lag.getD (eighth s.profile)⟩ } }).1)
      else { s with timer := { s.timer with
        provisional := none, lastReading := some ⟨r.mark, r.lead, r.lag.getD (eighth s.profile)⟩ } }) := by
    split
    · exact k.withdrawIf _ _ (k.post _ _ (k.countTally _ _ kept))
    · exact kept
  revert checked
  generalize (if s.profile.skewWindow < _ then _ else _ : State) = u
  intro checked
  split
  case isTrue arriving => exact k.becomeMember _ _ arriving checked
  case isFalse => exact checked

theorem Kept.settleReading (stray : Bool) (s : State) (hs : P s) : P (settleReading stray s) := by
  unfold Machine.settleReading
  split
  · exact hs
  · split
    · split
      · exact k.provisionalNone s s.timer.lastReading hs
      · exact k.keepReading _ s hs
    · exact hs

theorem Kept.vetoSample (ch : Level) (s : State) (hs : P s) {t : State} (h : execVetoSample ch s = .next t) : P t := by
  obtain rfl := Host.Outcome.next.inj h
  split
  case h_1 => exact hs
  case h_2 g hg =>
    split
    case isFalse => exact hs
    case isTrue reached =>
      have there := k.atPoint g _ s hg reached hs
      dsimp only
      generalize Machine.atPoint g (samplePhase s.profile) s = u at *
      have rest : ∀ (d : State) (claimed stray : Bool), P d → P (if claimed then
          Machine.withdraw .holdFault { d with timer := { d.timer with provisional := none } }
          else Machine.withdrawIf (if stray then Machine.countTally .stray d else (d, false)).2
            (Machine.settleReading stray (if stray then Machine.countTally .stray d else (d, false)).1)) := by
        intro d claimed stray decided
        split
        · exact k.withdraw _ _ (k.provisionalNone d d.timer.lastReading decided)
        · refine k.withdrawIf _ _ (k.settleReading _ _ ?_)
          split
          · exact k.countTally _ _ decided
          · exact decided
      refine rest _ (s.timer.claims.veto && ch == .high) _ ?_
      split
      · exact k.decideOrder _ _ _ there
      · exact there

/-! ### The edges of CH -/

theorem Kept.markLagRise (s : State) (hs : P s) {t : State} (h : execMarkLagRise s = .next t) : P t := by
  obtain rfl := Host.Outcome.next.inj h
  split
  case h_1 mark lead released provisional =>
    refine k.change (.timer s _ rfl (fun ⟨present, claim, transient, aligning⟩ =>
      ⟨present, claim, fun _ => transient (.inr (.inr (.inl ?_))), aligning⟩) id) hs
    rw [provisional]; rfl
  case h_2 => exact hs

theorem Kept.formationRise (s : State) (hs : P s) {t : State} (h : execFormationRise s = .next t) : P t := by
  obtain rfl := Host.Outcome.next.inj h
  split
  case isFalse => exact hs
  case isTrue formed =>
    obtain ⟨forming, -⟩ := formed
    refine k.postIfLive _ _ (k.post _ _ (k.takeTone 0 .restart true _ ?_ (k.purgeWhere _ _
      (k.change (.found _ s forming ?_) hs))))
    · rfl
    · rw [rosterFromFormation, Table.get_mapWith]
      split
      · simp
      · rfl

theorem Kept.alignmentPulseEnd (s : State) (hs : P s) {t : State} (h : execAlignmentPulseEnd s = .next t) : P t := by
  obtain rfl := Host.Outcome.next.inj h
  split
  case isFalse => exact hs
  case isTrue aligning =>
    split
    case h_1 => exact hs
    case h_2 fall hfall =>
      have ended : P { s with timer := { s.timer with pulseFall := none } } :=
        k.change (.timer s _ rfl (fun ⟨present, claim, transient, _⟩ => ⟨present, claim, transient, fun _ => aligning⟩) id) hs
      have noted : P { s with timer := { s.timer with pulseFall := none, endedPulse := keptPulse fall s } } :=
        k.change (.timer s _ rfl (fun ⟨present, claim, transient, _⟩ => ⟨present, claim, transient, fun _ => aligning⟩) id) hs
      dsimp only
      split
      case isFalse => exact ended
      case isTrue markPulse =>
        split
        case h_1 r _ =>
          split
          case isFalse => exact noted
          case isTrue =>
            refine k.align _ _ _ aligning (fun range => ?_) ended
            have skew : s.profile.skewWindow ≤ 63 := of_decide_eq_true (range 7 (by decide))
            have exponent : 8 ≤ s.profile.epochExp := (of_decide_eq_true (range 1 (by decide))).1
            have length : 2 ^ 8 ≤ epochLength s.profile := Nat.pow_le_pow_right (by decide) exponent
            have short : s.clock - fall ≤ epochLength s.profile / 2 + s.profile.skewWindow :=
              of_decide_eq_true (Bool.and_eq_true_iff.mp markPulse).2
            show s.clock - fall < epochLength s.profile
            omega
        case h_2 => exact noted

theorem Kept.chFall (s : State) (hs : P s) {t : State} (h : execChFall s = .next t) : P t := by
  obtain rfl := Host.Outcome.next.inj h
  have fall : gridState s.membership.state = true → P { s with timer := { s.timer with leadFall := some s.clock } } :=
    fun grid => k.change (.timer s _ rfl (fun ⟨present, claim, _, aligning⟩ => ⟨present, claim, fun _ => grid, aligning⟩) id) hs
  split
  case h_1 aligning =>
    exact k.change (.timer s _ rfl (fun ⟨present, claim, transient, _⟩ => ⟨present, claim, transient, fun _ => aligning⟩) id) hs
  case h_2 arriving => exact fall (by rw [arriving]; rfl)
  case h_3 member => exact fall (by rw [member]; rfl)
  case h_4 => exact hs

/-! ### The ends of the spans -/

theorem Kept.listenSpanEnd (s : State) (hs : P s) {t : State} (h : execListenSpanEnd s = .next t) : P t := by
  obtain rfl := Host.Outcome.next.inj h
  split
  case isFalse => exact hs
  case isTrue ended =>
    split
    · exact k.records s _ rfl rfl rfl ⟨rfl, rfl, rfl⟩ hs
    · exact k.enterForming _ s ended.1 hs

theorem Kept.alignmentSpanEnd (s : State) (hs : P s) {t : State} (h : execAlignmentSpanEnd s = .next t) : P t := by
  obtain rfl := Host.Outcome.next.inj h
  split
  · exact k.alignFailed _ s hs
  · exact hs

theorem Kept.helloFormingRepeat (s : State) (hs : P s) {t : State} (h : execHelloFormingRepeat s = .next t) : P t := by
  obtain rfl := Host.Outcome.next.inj h
  split
  · exact k.offer _ _ (by simp [isLeavingFrame, ownHello]) (k.records s _ rfl rfl rfl ⟨rfl, rfl, rfl⟩ hs)
  · exact hs

theorem Kept.formationSlow (s : State) (hs : P s) {t : State} (h : execFormationSlow s = .next t) : P t := by
  obtain rfl := Host.Outcome.next.inj h
  split
  · exact k.post _ _ (k.records s _ rfl rfl rfl ⟨rfl, rfl, rfl⟩ hs)
  · exact hs

end

/-! ### The accepted frames -/

/-- What the acceptance of a frame does before the report of a duplicate number (R87). -/
def deliveryOf (c : Instr) (s : State) : State → State :=
  match c with
  | .proposeAccepted sender seq target mask tone mode =>
    fun t => thenRoster (heardFrom sender) (deliverPropose sender seq target mask tone mode t)
  | .voteAccepted voter origin seq verdict =>
    fun t => thenRoster (heardFrom voter) (deliverVote voter origin seq verdict t)
  | .commitAccepted sender seq target => fun t => thenRoster (heardFrom sender) (deliverCommit sender seq target t)
  | .abortAccepted sender seq target reason refuser =>
    fun t => thenRoster (if reason = .originLeaving then heardLeaving sender else heardFrom sender)
      (deliverAbort sender seq target reason refuser t)
  | .epochAccepted sender mark horizon digest => deliverEpoch sender mark horizon digest (frameStart s)
  | .helloAccepted sender state group digest => deliverHello sender state group digest
  | .leaveAccepted sender reason => deliverLeave sender reason
  | _ => id

theorem exec_accepted {c : Instr} {n : StationNo} {p : Payload} (h : c.acceptedFrame = some (n, p)) (s : State) :
    exec c s = .next (accepted n p (deliveryOf c s) s) := by
  cases c <;> cases h <;> rfl

/-- No frame takes a station from LISTEN to a state with a counter. -/
theorem deliveryOf_listen (c : Instr) (s : State) {t : State} (h : t.membership.state = .listen) :
    gridState (deliveryOf c s t).membership.state = false := by
  unfold deliveryOf
  split
  case h_1 => rw [deliverPropose_listen _ _ _ _ _ _ h, thenRoster_listen _ h, h]; rfl
  case h_2 => rw [deliverVote_listen _ _ _ _ h, thenRoster_listen _ h, h]; rfl
  case h_3 => rw [deliverCommit_listen _ _ _ h, thenRoster_listen _ h, h]; rfl
  case h_4 => rw [deliverAbort_listen _ _ _ _ _ h, thenRoster_listen _ h, h]; rfl
  case h_5 => exact deliverEpoch_listen_state _ _ _ _ _ h
  case h_6 => exact deliverHello_listen_state _ _ _ _ h
  case h_7 => rw [deliverLeave_listen _ _ h, h]; rfl
  case h_8 => rw [id, h]; rfl

section
variable {lax dirty : Prop} {P : State → Prop} (k : Kept lax dirty P)
include k

theorem Kept.deliveryOf (c : Instr) (s t : State)
    (own : dirty ∨ ∀ n p, c.acceptedFrame = some (n, p) → n ≠ ownNumber t) (ht : P t) : P (deliveryOf c s t) := by
  have foreign : ∀ n p, c.acceptedFrame = some (n, p) → dirty ∨ n ≠ ownNumber t := fun n p hc => own.imp_right fun h => h n p hc
  unfold Machine.deliveryOf
  split
  case h_1 =>
    exact thenRoster_keeps (fun u recording => k.heardFrom _ u (.inr recording)) _ (k.deliverPropose _ _ _ _ _ _ _ ht)
  case h_2 => exact thenRoster_keeps (fun u recording => k.heardFrom _ u (.inr recording)) _ (k.deliverVote _ _ _ _ _ ht)
  case h_3 =>
    exact thenRoster_keeps (fun u recording => k.heardFrom _ u (.inr recording)) _
      (k.deliverCommit _ _ _ _ (foreign _ _ rfl) ht)
  case h_4 =>
    refine thenRoster_keeps (fun u recording hu => ?_) _ (k.deliverAbort _ _ _ _ _ _ (foreign _ _ rfl) ht)
    split
    · exact k.heardLeaving _ u recording hu
    · exact k.heardFrom _ u (.inr recording) hu
  case h_5 => exact k.deliverEpoch _ _ _ _ _ _ ht
  case h_6 => exact k.deliverHello _ _ _ _ _ ht
  case h_7 => exact k.deliverLeave _ _ _ ht
  case h_8 => exact ht

/-! ### Every command but a request, a reset and a reference clock -/

/-- A property that every change and the boundary keep is kept by every command but a request, a reset and a reference
clock; a frame with the own number may make the changes that `dirty` admits. -/
theorem Kept.exec (c : Instr) (s : State) (request : isRequest c = false) (reset : c ≠ .powerOnReset)
    (clock : c ≠ .carrierSample) (own : dirty ∨ ∀ n p, c.acceptedFrame = some (n, p) → n ≠ ownNumber s)
    (boundary : ∀ ch g, s.timer.grid = some g → g.due = true →
      P (Machine.fireDue (Machine.voteClose (advanceEpoch g ch s)))) (hs : P s) {t : State}
    (h : exec c s = .next t) : P t := by
  have frame : ∀ n p, c.acceptedFrame = some (n, p) → P t := by
    intro n p hc
    rw [exec_accepted hc] at h
    obtain rfl := Host.Outcome.next.inj h
    refine k.accepted n p _ s (k.deliveryOf c s _ ?_ (k.frameEnds s hs)) (fun hl => deliveryOf_listen c s (by simpa using hl)) hs
    simpa [ownNumber] using own
  cases c with
  | powerOnReset => exact absurd rfl reset
  | carrierSample => exact absurd rfl clock
  | epochBoundary ch => exact k.epochBoundary ch s (boundary ch) hs h
  | markRelease ch => exact k.markRelease ch s hs h
  | vetoPoint => exact k.vetoPoint s hs h
  | vetoSample ch => exact k.vetoSample ch s hs h
  | vetoRelease => exact k.vetoRelease s hs h
  | markLagRise => exact k.markLagRise s hs h
  | formationRise => exact k.formationRise s hs h
  | formationHoldFault =>
    obtain rfl := Host.Outcome.next.inj h
    split
    · exact k.withdraw _ s hs
    · exact hs
  | alignmentPulseEnd => exact k.alignmentPulseEnd s hs h
  | listenSpanEnd => exact k.listenSpanEnd s hs h
  | alignmentSpanEnd => exact k.alignmentSpanEnd s hs h
  | helloFormingRepeat => exact k.helloFormingRepeat s hs h
  | formationSlow => exact k.formationSlow s hs h
  | proposeAccepted => exact frame _ _ rfl
  | voteAccepted => exact frame _ _ rfl
  | commitAccepted => exact frame _ _ rfl
  | abortAccepted => exact frame _ _ rfl
  | epochAccepted => exact frame _ _ rfl
  | helloAccepted => exact frame _ _ rfl
  | leaveAccepted => exact frame _ _ rfl
  | frameFailed => exact k.frameFailed s hs h
  | receiveError => exact k.receiveError s hs h
  | attemptStart => exact k.attemptStart s hs h
  | arbitrationLost => exact k.arbitrationLost s hs h
  | bitMonitorMismatch inStart => exact k.bitMonitorMismatch inStart s hs h
  | frameTransmitted => exact k.frameTransmitted s hs h
  | attemptSpoiled => exact k.attemptSpoiled s hs h
  | cdFall => exact k.cdFall s hs h
  | slotReading cd => exact k.slotReading cd s hs h
  | chFall => exact k.chFall s hs h
  | spoiledFrame => exact k.spoiledFrame s hs h
  | _ => cases request

end

end Sys2Proof.Machine
end
section
/-! The requests, the reset and the reference clock, and with them every command and every step: the changes they make beside
those of `Change`, and what keeps a property through them. -/

namespace Sys2Proof.Machine

/-! ### SUBMIT -/

/-- The order and the ballot that an accepted SUBMIT makes (R6). -/
def submitted (target : Epoch) (mask : GroupMask) (tone : ToneIndex) (mode : PhaseMode) (s : State) : State :=
  { s with orders :=
    { schedule := s.orders.schedule.putFirstFree
        ⟨ownId s (nextSequence s), target, mask, tone, mode, .pending, .none, false, false⟩
      ballots := s.orders.ballots.putFirstFree ⟨nextSequence s, target, 0, 0, .awaitingSend⟩
      sequence := nextSequence s } }

theorem submitOrder_eq (target : Epoch) (mask : GroupMask) (tone : ToneIndex) (mode : PhaseMode) (s : State) :
    submitOrder target mask tone mode s = respond 0x07 .ok [nextSequence s]
      (offer (.propose (nextSequence s) target mask tone mode) (submitted target mask tone mode s)) := rfl

/-- The first sequence values above the counter, one more than the Schedule has slots (R5). -/
def sequenceCandidates (s : State) : List Seq := (List.range 17).map fun k => s.orders.sequence + BitVec.ofNat 8 (k + 1)

theorem sequenceCandidates_nodup (s : State) : (sequenceCandidates s).Nodup := by
  refine List.Nodup.map_on (fun a ha b hb same => ?_) List.nodup_range
  have ha : a < 17 := List.mem_range.mp ha
  have hb : b < 17 := List.mem_range.mp hb
  have := congrArg BitVec.toNat (add_left_cancel same)
  simp only [BitVec.toNat_ofNat] at this
  omega

/-- One of the candidates is free: the Schedule holds at most 16 orders. -/
theorem exists_freeSequence (s : State) :
    ∃ q ∈ sequenceCandidates s, (liveOrders s).any (fun o => o.id == ownId s q) = false := by
  by_contra used
  push Not at used
  have inSchedule : (sequenceCandidates s).map (ownId s) ⊆ (liveOrders s).map (·.id) := by
    intro id hid
    obtain ⟨q, hq, rfl⟩ := List.mem_map.mp hid
    obtain ⟨o, ho, same⟩ := List.any_eq_true.mp (by rw [← Bool.not_eq_false]; exact used q hq)
    exact List.mem_map.mpr ⟨o, ho, beq_iff_eq.mp same⟩
  have nodup : ((sequenceCandidates s).map (ownId s)).Nodup :=
    (sequenceCandidates_nodup s).map fun a b h => congrArg OrderId.seq h
  have short := (List.subperm_of_subset nodup inSchedule).length_le
  have : (liveOrders s).length ≤ 16 := Table.held_length_le _
  simp [sequenceCandidates] at short
  omega

theorem nextSequence_fresh (s : State) : ∀ o ∈ liveOrders s, o.id ≠ ownId s (nextSequence s) := by
  intro o ho same
  obtain ⟨q, hq, free⟩ := exists_freeSequence s
  have found : ((sequenceCandidates s).find? fun q => !(liveOrders s).any fun o => o.id == ownId s q).isSome = true :=
    List.find?_isSome.mpr ⟨q, hq, by simp [free]⟩
  obtain ⟨x, hx⟩ := Option.isSome_iff_exists.mp found
  have isNext : nextSequence s = x := by
    show (((sequenceCandidates s).find? _).getD _) = x
    rw [hx]; rfl
  have unused := List.find?_some hx
  rw [isNext] at same
  simp only [Bool.not_eq_true', List.any_eq_false, beq_iff_eq] at unused
  exact unused o ho same

/-- What a SUBMIT that passes every check has found (R6). -/
theorem submitRefusal_none {s : State} {target : Epoch} {mask : Byte} {tone : Option ToneIndex} {mode : Option PhaseMode}
    (h : submitRefusal s target mask tone mode = none) :
    leadAccepted s (nowEpoch s) target = true ∧ (openBallots s).length < 4 ∧ (liveOrders s).length < 16 ∧
      (∀ o ∈ liveOrders s, o.target ≠ target) ∧ ∃ i m, tone = some i ∧ mode = some m := by
  unfold submitRefusal at h
  split at h
  case h_2 => cases h
  case h_1 i m =>
    split_ifs at h with _ late ballots orders clash
    exact ⟨by simpa using late, not_le.mp ballots, not_le.mp orders,
      by simpa [orderWithTarget] using clash, i, m, rfl, rfl⟩

theorem aheadOf_of_leadAccepted {s : State} {now target : Epoch} (h : leadAccepted s now target = true) :
    aheadOf now target = true := by
  simp only [leadAccepted, aheadOf, Bool.and_eq_true, decide_eq_true_eq] at *
  omega

/-! ### The requests -/

/-- The changes that the requests make beside those of `Change`: a response, a parameter, a tone entry, a submitted order. -/
structure KeptByRequests (P : State → Prop) (s : State) : Prop where
  answer : ∀ (t : State) (r : Response), P t → P { t with response := r }
  profile : ∀ id value : Nat, parameterInRange id value = true → s.membership.state = .idle →
    P { s with profile := setParameter s.profile id value }
  tones : ∀ table : Table ToneEntry 64, s.membership.state = .idle →
    P { s with carrier := { s.carrier with tones := table } }
  submit : ∀ (target : Epoch) (mask : GroupMask) (tone : ToneIndex) (mode : PhaseMode), s.membership.state = .member →
    (openBallots s).length < 4 → (liveOrders s).length < 16 → (∀ o ∈ liveOrders s, o.target ≠ target) →
    leadAccepted s (nowEpoch s) target = true → P (submitted target mask tone mode s)

section
variable {lax dirty : Prop} {P : State → Prop} (k : Kept lax dirty P)
include k

theorem Kept.start (s : State) (idle : s.membership.state = .idle) (hs : P s) :
    P (enterListen true { s with membership := { s.membership with withdrawals := 0 }, bus := busStopped }) := by
  have stopped : P { s with bus := busStopped } := k.busSame s busStopped (.inl rfl) (fun _ => by simp [busStopped])
    (fun _ => by simp [busStopped]) hs
  have counted : P { s with bus := busStopped, membership := { s.membership with withdrawals := 0 } } := by
    refine k.change (.membership { s with bus := busStopped } { s.membership with withdrawals := 0 } rfl rfl rfl ?_) stopped
    rintro ⟨idle, attempts, -, rest⟩
    exact ⟨idle, attempts, Nat.zero_le _, rest⟩
  exact k.change (.toListen true _ (.inr (.inl (by simp [idle, gridState])))
    (.inr (.inl (by simp [idle, recordingState]))) (.inl (by simp [idle]))) counted

theorem Kept.stop (s : State) (hs : P s) : P (match s.membership.state with
    | .idle => s
    | .listen => enterIdle s
    | .aligning => enterIdle s
    | .forming => Machine.withdraw .stop s
    | .arriving => Machine.withdraw .stop s
    | .member => Machine.withdraw .stop s
    | .leaving =>
      { s with membership :=
        { s.membership with leaving := s.membership.leaving.map fun l => { l with destination := .idle } } }) := by
  split
  case h_1 => exact hs
  case h_2 listen => exact k.change (.toIdle s (.inr (.inl (by simp [listen, gridState])))) hs
  case h_3 aligning => exact k.change (.toIdle s (.inr (.inl (by simp [aligning, gridState])))) hs
  case h_4 => exact k.withdraw _ s hs
  case h_5 => exact k.withdraw _ s hs
  case h_6 => exact k.withdraw _ s hs
  case h_7 => exact k.change (.membership s _ rfl (by simp) rfl id) hs

theorem Kept.restart (s : State) (hs : P s) : P { Machine.carrierReset (enterIdle s) with
    membership := { (enterIdle s).membership with withdrawals := 0 }
    timer := { (enterIdle s).timer with lastReading := none } } := by
  have idled : P (enterIdle (Machine.carrierReset s)) :=
    k.change (.toIdle _ (.inr (.inr rfl))) (k.carrierReset s hs)
  have counted : P { enterIdle (Machine.carrierReset s) with
      membership := { (enterIdle s).membership with withdrawals := 0 } } := by
    refine k.change (.membership (enterIdle (Machine.carrierReset s)) { (enterIdle s).membership with withdrawals := 0 }
      rfl rfl rfl ?_) idled
    rintro ⟨idle, attempts, -, rest⟩
    exact ⟨idle, attempts, Nat.zero_le _, rest⟩
  exact k.change (.timer { enterIdle (Machine.carrierReset s) with
      membership := { (enterIdle s).membership with withdrawals := 0 } }
    { (enterIdle s).timer with lastReading := none } rfl id id) counted

/-- A request keeps a property that every change and the changes of the requests keep. -/
theorem Kept.request (c : Instr) (s : State) (request : isRequest c = true) (own : KeptByRequests P s) (hs : P s) {t : State}
    (h : Machine.exec c s = .next t) : P t := by
  have respond : ∀ (code : Byte) (status : Status) (fields : List Byte) (u : State), P u → P (respond code status fields u) :=
    fun _ _ _ u hu => own.answer u _ hu
  have refuse : ∀ (code : Byte) (reason : RefusalReason), P (refuseRequest code reason s) := fun _ _ => own.answer s _ hs
  cases c
  all_goals cases request
  all_goals obtain rfl := Host.Outcome.next.inj h; refine taking_keeps _ hs ?_
  case loadParameter id value =>
    split_ifs with range idle
    · exact respond _ _ _ _ hs
    · exact respond _ _ _ _ hs
    · exact respond _ _ _ _ (own.profile _ _ (by simpa using range) (not_not.mp idle))
  case loadTone =>
    split
    · exact respond _ _ _ _ hs
    · split_ifs with _ idle
      · exact respond _ _ _ _ hs
      · exact respond _ _ _ _ hs
      · exact respond _ _ _ _ (own.tones _ (not_not.mp idle))
  case clearTone =>
    split
    · exact respond _ _ _ _ hs
    · split_ifs with idle
      · exact respond _ _ _ _ hs
      · exact respond _ _ _ _ (own.tones _ (not_not.mp idle))
  case start =>
    split_ifs with idle
    · exact respond _ _ _ _ hs
    · exact refuse _ _
    · exact respond _ _ _ _ (k.start s (not_not.mp idle) hs)
  case stop => exact respond _ _ _ _ (k.stop s hs)
  case restart => exact respond _ _ _ _ (k.restart s hs)
  case submit target mask tone mode =>
    split
    · exact refuse _ _
    case isFalse member =>
      split
      · exact refuse _ _
      case h_2 passed =>
        obtain ⟨lead, ballots, orders, targets, i, m, hi, hm⟩ := submitRefusal_none passed
        simp only [hi, hm]
        rw [submitOrder_eq]
        exact respond _ _ _ _ (k.offer _ _ (by simp [isLeavingFrame])
          (own.submit target mask i m (not_not.mp member) ballots orders targets lead))
  case withdraw =>
    split
    · exact refuse _ _
    · split
      · split
        · exact refuse _ _
        · exact respond _ _ _ _ (k.abortOwn _ _ (by simp) _ s hs)
      · split <;> exact refuse _ _
  case veto =>
    split
    · exact respond _ _ _ _ hs
    · split
      · exact refuse _ _
      · split
        · exact refuse _ _
        · split
          · exact refuse _ _
          · exact respond _ _ _ _ (k.change (.updateOrder _ _ s (fun _ => ⟨rfl, rfl⟩) (.inr (.inl fun _ => rfl))) hs)
  case readStatus => exact respond _ _ _ _ hs
  case readRoster => exact respond _ _ _ _ hs
  case readOrder => split <;> [exact respond _ _ _ _ hs; split <;> exact respond _ _ _ _ hs]
  case readBallot => split <;> [exact respond _ _ _ _ hs; split <;> exact respond _ _ _ _ hs]
  case readTallies => exact respond _ _ _ _ hs
  case clearTallies =>
    refine respond _ _ _ _ (k.change (.monitor s _ ?_) hs)
    rintro ⟨notices, -⟩
    exact ⟨notices, Nat.zero_le _, Nat.zero_le _, Nat.zero_le _, Nat.zero_le _, Nat.zero_le _, Nat.zero_le _, Nat.zero_le _⟩
  case takeNotice =>
    split
    · exact respond _ _ _ _ hs
    case h_2 n rest taken =>
      refine respond _ _ _ _ (k.change (.monitor s _ ?_) hs)
      rintro ⟨notices, others⟩
      rw [taken, List.length_cons] at notices
      exact ⟨Nat.le_of_succ_le notices, others⟩
  case badRequest => split <;> [exact hs; exact respond _ _ _ _ hs]

end

/-! ### The reference clock -/

theorem carrierFollowsState_clock (s : State) (h : CarrierFollowsState s) :
    CarrierFollowsState { s with carrier := clockCarrier s } := by
  obtain ⟨silent, -, -⟩ := h
  refine ⟨fun outside => ?_, fun nonzero => ?_, List.length_take_le ..⟩
  · obtain ⟨accumulator, frequency, amplitude, current, synced, delay⟩ := silent outside
    refine ⟨by simp [clockCarrier, accumulator, frequency], frequency, amplitude, current, synced, fun x hx => ?_⟩
    have hx := List.mem_of_mem_take hx
    rw [amplitude, sampleOf_zero_amplitude] at hx
    rcases List.mem_cons.mp hx with rfl | hx
    · rfl
    · exact delay x hx
  · have live : outputState s = .live := by
      by_contra dark
      exact nonzero (by simp [clockCarrier, dark])
    unfold outputState outputOf at live
    split_ifs at live with member synced
    exact ⟨member, synced⟩

theorem clockGrid_counter (p : Profile) (g : Grid) : (clockGrid p g).counter = g.counter := by
  unfold clockGrid; split <;> rfl

theorem clockTimer_counter (p : Profile) (t : EpochTimer) :
    ((clockTimer p t).grid.map fun g => g.counter) = t.grid.map fun g => g.counter := by
  cases h : t.grid <;> simp [clockTimer, h, clockGrid_counter]

theorem gridInRange_clock (s : State) (h : GridInRange s) : GridInRange { s with timer := clockTimer s.profile s.timer } := by
  intro g hg
  obtain ⟨x, hx, rfl⟩ := Option.map_eq_some_iff.mp hg
  obtain ⟨phase, point, due⟩ := h x hx
  show (clockGrid s.profile x).phase < epochLength s.profile ∧ (clockGrid s.profile x).point ≤ (clockGrid s.profile x).phase ∧
    ((clockGrid s.profile x).due = true → (clockGrid s.profile x).phase = epochLength s.profile - 1)
  unfold clockGrid
  split
  case isTrue room =>
    refine ⟨room, Nat.le_succ_of_le point, fun isDue => ?_⟩
    have := due isDue
    simp only at *
    omega
  case isFalse last =>
    refine ⟨phase, point, fun _ => ?_⟩
    simp only at *
    omega

theorem timerFollowsState_clock (s : State) (h : TimerFollowsState s) :
    TimerFollowsState { s with timer := clockTimer s.profile s.timer } := by
  obtain ⟨present, rest⟩ := h
  exact ⟨by simpa [clockTimer] using present, rest⟩

theorem clockMembership_keeps (p : Profile) (m : Membership) :
    (clockMembership p m).state = m.state ∧ (clockMembership p m).leaving = m.leaving ∧
      (clockMembership p m).roster = m.roster ∧ (clockMembership p m).withdrawals = m.withdrawals ∧
      (clockMembership p m).memberMarks = m.memberMarks ∧ (clockMembership p m).quiet = m.quiet := by
  unfold clockMembership; split <;> exact ⟨rfl, rfl, rfl, rfl, rfl, rfl⟩

theorem clockBus_sending (s : State) : (clockBus s).sending = s.bus.sending := by
  unfold clockBus; split
  · exact busAtEdge_sending s
  · split <;> rfl

theorem clockBus_attempts (s : State) : (clockBus s).attempts = s.bus.attempts := by
  unfold clockBus; split
  · exact busAtEdge_attempts s
  · split <;> rfl

theorem clockBus_idleCount_le (s : State) (h : s.bus.idleCount ≤ 6) : (clockBus s).idleCount ≤ 6 := by
  unfold clockBus; split
  · unfold busAtEdge; dsimp only; split
    · exact Nat.zero_le _
    · exact h
  · split <;> exact h

section
variable {lax dirty : Prop} {P : State → Prop} (k : Kept lax dirty P)
include k

/-- The clock of a station that runs, all but its pins. -/
theorem Kept.counts (s : State) (hs : P s) : P { s with
    carrier := clockCarrier s, timer := clockTimer s.profile s.timer
    membership := clockMembership s.profile s.membership, bus := clockBus s } := by
  obtain ⟨state, leaving, roster, withdrawals, marks, quiet⟩ := clockMembership_keeps s.profile s.membership
  have sampled := k.change (.carrier s (clockCarrier s) rfl (carrierFollowsState_clock s)) hs
  have timed : P { s with carrier := clockCarrier s, timer := clockTimer s.profile s.timer } :=
    k.change (.timer { s with carrier := clockCarrier s } (clockTimer s.profile s.timer) (clockTimer_counter ..) (timerFollowsState_clock s) (gridInRange_clock s)) sampled
  have counted : P { s with
      carrier := clockCarrier s, timer := clockTimer s.profile s.timer
      membership := clockMembership s.profile s.membership } := by
    refine k.change (.membership { s with carrier := clockCarrier s, timer := clockTimer s.profile s.timer }
      (clockMembership s.profile s.membership) state (by rw [leaving]) roster ?_) timed
    unfold CountsInRange
    dsimp only
    rw [state, withdrawals, marks, quiet]
    exact id
  exact k.busSame { s with
    carrier := clockCarrier s, timer := clockTimer s.profile s.timer
    membership := clockMembership s.profile s.membership } (clockBus s) (.inr (clockBus_sending s)) (clockBus_idleCount_le s)
    (fun h => by rw [clockBus_attempts]; exact h) counted

/-- The clock of a station that runs keeps a property that every change keeps and that reads no pin. -/
theorem Kept.carrierSample (s : State) (reset : (pinsNow s).rstn = .low → ∀ port, P (inReset .low port { s with inputs := s.inputs.tail }))
    (pins : ∀ (u : State), P u → P { u with
      localPort := clockPort (pinsNow s) s.localPort, resetPin := .high, inputs := s.inputs.tail, clock := s.clock + 1 })
    (hs : P s) {t : State} (h : Machine.exec .carrierSample s = .next t) : P t := by
  obtain rfl := Host.Outcome.next.inj h
  split
  case h_1 low => exact reset low _
  case h_2 => exact k.withdrawIf _ _ (pins _ (k.counts s hs))

end

/-! ### Every step -/

/-- The parts of the state that no invariant reads: the response, the pins and the waiting commands. -/
def PinsFree (P : State → Prop) : Prop :=
  ∀ (s : State) (response : Response) (localPort : LocalPort) (resetPin : Level) (inputs : List Pins) (clock : Nat)
    (pending : List Instr), P s → P { s with
      response := response, localPort := localPort, resetPin := resetPin, inputs := inputs, clock := clock, pending := pending }

/-- A step is the command at the front, on the state with the queue's rest, or nothing. -/
theorem step_cases {s t : State} (h : step s = .next t) :
    t = s ∨ ∃ c rest, s.pending = c :: rest ∧ exec c { s with pending := rest } = .next t := by
  unfold step at h
  split at h
  · exact .inl (Host.Outcome.next.inj h).symm
  case h_2 c rest waiting => exact .inr ⟨c, rest, waiting, h⟩

/-- A property of the state without its pins that every change, the requests, the boundary and the reset keep is kept by
every step; a frame with the own number may make the changes that `dirty` admits. -/
theorem Kept.step {lax dirty : Prop} {P : State → Prop} (k : Kept lax dirty P) (pins : PinsFree P) (s : State)
    (own : dirty ∨ ∀ c ∈ s.pending.head?, ∀ n p, c.acceptedFrame = some (n, p) → n ≠ ownNumber s)
    (requests : ∀ u, P u → KeptByRequests P u)
    (boundary : ∀ u ch g, P u → u.timer.grid = some g → g.due = true →
      P (Machine.fireDue (Machine.voteClose (advanceEpoch g ch u))))
    (reset : P State.reset) (hs : P s) {t : State} (h : Machine.step s = .next t) : P t := by
  rcases step_cases h with rfl | ⟨c, rest, waiting, h⟩
  · exact hs
  · have hr : P { s with pending := rest } := pins s s.response s.localPort s.resetPin s.inputs s.clock rest hs
    have inReset : ∀ rstn port (u : State), P (inReset rstn port u) := fun rstn port u =>
      pins State.reset State.reset.response port rstn u.inputs 0 u.pending reset
    by_cases request : isRequest c = true
    · exact k.request c _ request (requests _ hr) hr h
    · rcases eq_or_ne c .carrierSample with rfl | notClock
      · exact k.carrierSample _ (fun _ port => inReset .low port _)
          (fun u hu => pins u u.response _ _ _ _ u.pending hu) hr h
      · rcases eq_or_ne c .powerOnReset with rfl | notReset
        · obtain rfl := Host.Outcome.next.inj h
          exact inReset _ _ _
        · exact k.exec c _ (by simpa using request) notReset notClock
            (own.imp_right fun foreign => foreign c (by rw [waiting]; simp))
            (fun ch g hg due => boundary _ ch g hr hg due) hr h

end Sys2Proof.Machine
end
section
/-! The ranges of the counts, the Epoch Timer with the station state, and the tables with the station state are kept by every
change, and so by every step. -/

namespace Sys2Proof.Machine

/-! ### One parameter at a time -/

theorem parameterValue_setParameter {id value : Nat} (p : Profile) (h : parameterInRange id value = true) :
    parameterValue (setParameter p id value) id = value := by
  unfold parameterInRange at h
  split at h
  case h_16 => cases h
  all_goals replace h := of_decide_eq_true h
  case h_9 => exact Nat.mod_eq_of_lt (by omega)
  case h_10 => exact Nat.mod_eq_of_lt (by omega)
  case h_13 => exact Nat.mod_eq_of_lt (by omega)
  case h_14 => exact Nat.mod_eq_of_lt (by omega)
  all_goals rfl

theorem parameterValue_setParameter_other {id k : Nat} (value : Nat) (p : Profile) (h : k ≠ id) :
    parameterValue (setParameter p id value) k = parameterValue p k := by
  unfold setParameter
  split
  all_goals unfold parameterValue; split <;> first | rfl | exact absurd rfl h

theorem epochLength_pos (p : Profile) : 0 < epochLength p := Nat.two_pow_pos _

/-! ### The boundary -/

/-- The timer's own action at a boundary changes nothing but the Epoch Timer. -/
theorem advanceEpoch_eq (g : Grid) (ch : Level) (s : State) :
    advanceEpoch g ch s = { s with timer := (advanceEpoch g ch s).timer } := by
  unfold advanceEpoch; dsimp only; split <;> rfl

theorem advanceEpoch_grid (g : Grid) (ch : Level) (s : State) :
    (advanceEpoch g ch s).timer.grid = some ⟨g.counter + 1, 0, 0, false⟩ := by
  unfold advanceEpoch; dsimp only; split <;> rfl

theorem Kept.boundaryActions {lax dirty : Prop} {P : State → Prop} (k : Kept lax dirty P) {g : Grid} {ch : Level} {s : State}
    (advanced : P (advanceEpoch g ch s)) : P (Machine.fireDue (Machine.voteClose (advanceEpoch g ch s))) :=
  k.fireDue _ (k.voteClose _ advanced)

/-! ### The Monitor, the profile and the counts -/

theorem monitorBounded_kept : Kept True True MonitorBounded where
  leaving := .inl trivial
  change := by
    rintro s t h hs
    cases h
    case monitor m bounded => exact bounded hs
    case toListen keep _ _ _ =>
      obtain ⟨notices, overflow, _⟩ := hs
      cases keep
      · exact ⟨notices, overflow, Nat.zero_le _, Nat.zero_le _, Nat.zero_le _, Nat.zero_le _, Nat.zero_le _, Nat.zero_le _⟩
      · exact ⟨notices, overflow, by assumption⟩
    all_goals exact hs

theorem profileInRange_change {lax dirty : Prop} {s t : State} (h : Change lax dirty s t) (hs : ProfileInRange s) : ProfileInRange t := by
  cases h <;> exact hs

theorem profileInRange_kept : Kept True True ProfileInRange := ⟨profileInRange_change, .inl trivial⟩

theorem countsInRange_kept : Kept True True CountsInRange where
  leaving := .inl trivial
  change := by
    rintro s t h hs
    have ⟨idle, attempts, withdrawals, marks, quiet, others⟩ := hs
    cases h
    case bus b _ idle' attempts' => exact ⟨idle' idle, attempts' attempts, withdrawals, marks, quiet, others⟩
    case membership m _ _ _ counts => exact counts hs
    case toIdle => exact ⟨Nat.zero_le _, Nat.zero_lt_succ _, withdrawals, Nat.zero_le _, Nat.zero_le _, fun _ => ⟨rfl, rfl⟩⟩
    case toMember arriving =>
      have outside : s.membership.state ≠ .member := by simp [arriving]
      exact ⟨idle, attempts, withdrawals, Nat.zero_le _, quiet, fun absurd => (absurd rfl).elim⟩
    case toArriving aligning _ _ =>
      have outside : s.membership.state ≠ .member := by simp [aligning]
      exact ⟨idle, attempts, withdrawals, marks, quiet, fun _ => others outside⟩
    case toListen => exact ⟨idle, attempts, withdrawals, Nat.zero_le _, Nat.zero_le _, fun _ => ⟨rfl, rfl⟩⟩
    case toLeaving => exact ⟨idle, attempts, withdrawals, Nat.zero_le _, Nat.zero_le _, fun _ => ⟨rfl, rfl⟩⟩
    case toForming => exact ⟨idle, attempts, withdrawals, Nat.zero_le _, Nat.zero_le _, fun _ => ⟨rfl, rfl⟩⟩
    case toAligning => exact ⟨idle, attempts, withdrawals, Nat.zero_le _, Nat.zero_le _, fun _ => ⟨rfl, rfl⟩⟩
    case found => exact ⟨idle, attempts, withdrawals, Nat.zero_le _, Nat.zero_le _, fun _ => ⟨rfl, rfl⟩⟩
    all_goals exact hs

/-! ### The Epoch Timer -/

theorem timerFollowsState_change {lax dirty : Prop} {s t : State} (h : Change lax dirty s t) (hs : TimerFollowsState s) : TimerFollowsState t := by
  have ⟨present, claim, transient, aligning⟩ := hs
  cases h
  case timer follows _ => exact follows hs
  case membership m state _ _ _ => simpa only [TimerFollowsState, state] using hs
  case toForming listen =>
    have outside : gridState s.membership.state = false := by rw [listen]; rfl
    refine ⟨?_, fun _ => rfl, fun h => ?_, fun h => ?_⟩
    · exact present.trans outside
    · have := transient h
      rw [outside] at this; cases this
    · have := aligning h
      rw [listen] at this; cases this
  case toAligning => exact ⟨rfl, by simp [timerCleared, Claims.none], by simp [timerCleared, Claims.none], fun _ => rfl⟩
  case toMember arriving =>
    refine ⟨by rw [present, arriving]; rfl, fun h => ?_, fun _ => rfl, fun h => ?_⟩
    · have := claim h
      rw [arriving] at this; cases this
    · have := aligning h
      rw [arriving] at this; cases this
  case toIdle => exact ⟨rfl, by simp [enterIdle, timerCleared, Claims.none], by simp [enterIdle, timerCleared, Claims.none],
    by simp [enterIdle, timerCleared]⟩
  case toListen => exact ⟨rfl, by simp [enterListen, timerCleared, Claims.none],
    by simp [enterListen, timerCleared, Claims.none], by simp [enterListen, timerCleared]⟩
  case toLeaving => exact ⟨rfl, by simp [enterLeaving, timerCleared, Claims.none],
    by simp [enterLeaving, timerCleared, Claims.none], by simp [enterLeaving, timerCleared]⟩
  case toArriving => exact ⟨rfl, by simp [timerCleared, Claims.none], by simp [timerCleared, Claims.none],
    by simp [timerCleared]⟩
  case found => exact ⟨rfl, by simp [timerCleared, Claims.none], by simp [timerCleared, Claims.none],
    by simp [timerCleared]⟩
  all_goals exact hs

theorem timerFollowsState_kept : Kept True True TimerFollowsState := ⟨timerFollowsState_change, .inl trivial⟩

theorem timerFollowsState_advance (g : Grid) (ch : Level) (s : State) (hg : s.timer.grid = some g) (h : TimerFollowsState s) :
    TimerFollowsState (advanceEpoch g ch s) := by
  obtain ⟨present, claim, -, aligning⟩ := h
  have inGrid : gridState s.membership.state = true := by rw [← present, hg]; rfl
  unfold advanceEpoch
  dsimp only
  split
  · exact ⟨inGrid.symm, claim, fun _ => inGrid, aligning⟩
  · exact ⟨inGrid.symm, claim, fun _ => inGrid, aligning⟩

/-- The phase in its range, with the facts about the profile and the timer that it rests on. -/
def PhaseInRange (s : State) : Prop := ProfileInRange s ∧ TimerFollowsState s ∧ GridInRange s

theorem phaseInRange_kept : Kept True True PhaseInRange where
  leaving := .inl trivial
  change := by
    rintro s t h ⟨profile, timer, range⟩
    refine ⟨profileInRange_change h profile, timerFollowsState_change h timer, ?_⟩
    cases h
    case timer follows keeps => exact keeps range
    case toArriving _ _ phase =>
      rintro g hg
      cases hg
      exact ⟨phase profile, Nat.zero_le _, fun h => by cases h⟩
    case found =>
      rintro g hg
      cases hg
      exact ⟨epochLength_pos _, Nat.zero_le _, fun h => by cases h⟩
    case toAligning => exact fun g hg => by cases hg
    case toIdle => exact fun g hg => by cases hg
    case toListen => exact fun g hg => by cases hg
    case toLeaving => exact fun g hg => by cases hg
    all_goals exact range

theorem phaseInRange_advance (g : Grid) (ch : Level) (s : State) (hg : s.timer.grid = some g) (h : PhaseInRange s) :
    PhaseInRange (advanceEpoch g ch s) := by
  obtain ⟨profile, timer, -⟩ := h
  have same : (advanceEpoch g ch s).profile = s.profile := by rw [advanceEpoch_eq]
  refine ⟨by rw [advanceEpoch_eq]; exact profile, timerFollowsState_advance g ch s hg timer, fun x hx => ?_⟩
  rw [advanceEpoch_grid] at hx
  cases hx
  exact ⟨epochLength_pos _, Nat.zero_le _, fun h => by cases h⟩

/-! ### The tables -/

theorem leavingOnly_of_tables {s : State} (h : TablesFollowState s) : LeavingOnly s := fun leaving => h.1.mp leaving

theorem tablesFollowState_kept {dirty : Prop} : Kept False dirty TablesFollowState where
  leaving := .inr fun _ => leavingOnly_of_tables
  change := by
    rintro s t h hs
    have ⟨leaving, quiet, own, ballots⟩ := hs
    cases h
    case freeBallot seq =>
      exact ⟨leaving, quiet, own, fun h => by rw [openBallots_freeBallot, ballots h]; rfl⟩
    case dropOrders p _ =>
      refine ⟨leaving, fun h => ⟨?_, (quiet h).2⟩, own, ballots⟩
      show Table.held (s.orders.schedule.dropWhere p) = []
      rw [Table.held_dropWhere, show s.orders.schedule.held = [] from (quiet h).1]; rfl
    case clearOrders =>
      exact ⟨leaving, fun h => ⟨liveOrders_cleared _ s.orders rfl, (quiet h).2⟩, own,
        fun h => openBallots_cleared _ s.orders rfl⟩
    case addOrder o recording _ _ =>
      refine ⟨leaving, fun h => ?_, own, ballots⟩
      rw [show recordingState s.membership.state = false from h] at recording; cases recording
    case updateOrder id f _ _ =>
      exact ⟨leaving, fun h => ⟨by rw [liveOrders_updateOrder, (quiet h).1]; rfl, (quiet h).2⟩, own, ballots⟩
    case updateBallot =>
      exact ⟨leaving, quiet, own, fun h => by rw [openBallots_updateBallot, ballots h]; rfl⟩
    case dropElector n =>
      refine ⟨leaving, quiet, own, fun h => ?_⟩
      show Table.held (s.orders.ballots.map _) = []
      rw [Table.held_map_option, show s.orders.ballots.held = [] from ballots h]; rfl
    case membership m state left roster _ =>
      refine ⟨by simpa only [state, left] using leaving, fun h => ?_, ?_, fun h => ballots (state ▸ h)⟩
      · obtain ⟨orders, entries⟩ := quiet (state ▸ h)
        exact ⟨orders, fun n => by rw [rosterEntry, roster]; exact entries n⟩
      · rw [rosterEntry, roster]; exact own
    case roster r keepsOwn recording =>
      refine ⟨leaving, fun h => ⟨(quiet h).1, fun n => ?_⟩, keepsOwn own, ballots⟩
      rcases recording with h' | h' | h'
      · exact h'.elim
      · rw [show recordingState s.membership.state = false from h] at h'; cases h'
      · exact h' n ((quiet h).2 n)
    case toIdle =>
      exact ⟨by simp [enterIdle, membershipCleared], fun _ => ⟨liveOrders_cleared _ s.orders rfl, fun n => Table.get_fill ..⟩,
        Table.get_fill .., fun _ => openBallots_cleared _ s.orders rfl⟩
    case toListen keep _ orders queue =>
      have none : liveOrders s = [] ∧ openBallots s = [] := by
        rcases orders with h | h | h
        · exact h.elim
        · exact ⟨(quiet h).1, ballots fun member => by rw [member] at h; cases h⟩
        · exact h
      exact ⟨by simp [enterListen, membershipCleared], fun _ => ⟨none.1, fun n => Table.get_fill ..⟩, Table.get_fill ..,
        fun _ => none.2⟩
    case toLeaving =>
      exact ⟨by simp [enterLeaving, membershipCleared],
        fun _ => ⟨liveOrders_cleared _ s.orders rfl, fun n => Table.get_fill ..⟩, Table.get_fill ..,
        fun _ => openBallots_cleared _ s.orders rfl⟩
    case toForming listen =>
      have quietState : recordingState s.membership.state = false := by rw [listen]; rfl
      exact ⟨by simp [membershipCleared], fun _ => ⟨(quiet quietState).1, fun n => Table.get_fill ..⟩, Table.get_fill ..,
        fun _ => ballots (by rw [listen]; decide)⟩
    case toAligning state =>
      have outside : s.membership.state ≠ .member := by rcases state with h | h <;> rw [h] <;> decide
      exact ⟨by simp [membershipCleared], fun (h : true = false) => (Bool.noConfusion h), Table.get_fill ..,
        fun _ => ballots outside⟩
    case toArriving aligning _ _ =>
      refine ⟨⟨fun h => ?_, fun h => by cases h⟩, fun (h : true = false) => Bool.noConfusion h, own, fun _ => ballots (by rw [aligning]; decide)⟩
      have := leaving.mp h
      rw [aligning] at this; cases this
    case toMember arriving =>
      refine ⟨⟨fun h => ?_, fun h => by cases h⟩, fun (h : true = false) => Bool.noConfusion h, own, fun h => absurd rfl h⟩
      have := leaving.mp h
      rw [arriving] at this; cases this
    case found forming ownAbsent =>
      exact ⟨by simp [membershipCleared], fun (h : true = false) => Bool.noConfusion h, ownAbsent, fun h => absurd rfl h⟩
    all_goals exact hs

/-! ### The carrier -/

/-- The carrier with the tables, which say where a withdrawal ends. -/
def CarrierAndTables (s : State) : Prop := TablesFollowState s ∧ CarrierFollowsState s

theorem carrierFollowsState_of_silent {s t : State} (tones : t.carrier = s.carrier)
    (silent : gridState s.membership.state = false ∨ CarrierAtRest s) (h : CarrierFollowsState s) : CarrierFollowsState t := by
  obtain ⟨quiet, port, delay⟩ := h
  have rest : s.carrier.accumulator = 0 ∧ s.carrier.frequency = 0 ∧ s.carrier.amplitude = 0 ∧ s.carrier.current = none ∧
      s.carrier.synced = false ∧ (∀ x ∈ s.carrier.delayLine, x = 0) ∧ s.carrier.port = 0 := by
    rcases silent with outside | atRest
    · obtain ⟨a, f, m, c, y, d⟩ := quiet outside
      refine ⟨a, f, m, c, y, d, ?_⟩
      by_contra nonzero
      have := (port nonzero).2
      rw [y] at this; cases this
    · unfold CarrierAtRest at atRest
      rw [atRest]; exact ⟨rfl, rfl, rfl, rfl, rfl, by simp [carrierReset], rfl⟩
  obtain ⟨a, f, m, c, y, d, p⟩ := rest
  unfold CarrierFollowsState
  rw [tones]
  exact ⟨fun _ => ⟨a, f, m, c, y, d⟩, fun h => absurd p h, delay⟩

theorem carrierAndTables_kept {dirty : Prop} : Kept False dirty CarrierAndTables where
  leaving := .inr fun _ h => leavingOnly_of_tables h.1
  change := by
    rintro s t h ⟨tables, hs⟩
    refine ⟨tablesFollowState_kept.change h tables, ?_⟩
    have ⟨quiet, port, delay⟩ := hs
    cases h
    case carrier c _ follows => exact follows hs
    case membership m state _ _ _ => simpa only [CarrierFollowsState, state] using hs
    case toIdle silent => exact carrierFollowsState_of_silent (s := s) rfl (silent.resolve_left id) hs
    case toListen silent _ _ =>
      exact carrierFollowsState_of_silent (s := s) rfl (silent.resolve_left id) hs
    case toLeaving =>
      exact ⟨fun _ => ⟨rfl, rfl, rfl, rfl, rfl, by simp [enterLeaving, carrierReset]⟩, fun h => absurd rfl h, Nat.zero_le _⟩
    case toForming listen =>
      exact carrierFollowsState_of_silent (s := s) rfl (.inl (by rw [listen]; rfl)) hs
    case toAligning state =>
      have outside : gridState s.membership.state = false := by rcases state with h | h <;> rw [h] <;> rfl
      exact carrierFollowsState_of_silent (s := s) rfl (.inl outside) hs
    case toArriving aligning _ _ =>
      exact carrierFollowsState_of_silent (s := s) rfl (.inl (by rw [aligning]; rfl)) hs
    case toMember arriving => exact ⟨fun (h : true = false) => Bool.noConfusion h, fun nonzero => ⟨rfl, (port nonzero).2⟩, delay⟩
    case found forming _ => exact ⟨fun (h : true = false) => Bool.noConfusion h, fun nonzero => ⟨rfl, (port nonzero).2⟩, delay⟩
    all_goals exact hs

end Sys2Proof.Machine
end
section
/-! The Schedule, the ballots and the Transmit Queue are kept in order by every change. -/

namespace Sys2Proof.Machine

/-! ### The Schedule -/

/-- A record put into the first free slot, if it agrees with every record held, keeps the records in agreement pairwise. -/
theorem pairwise_putFirstFree {α : Type} {n : Nat} {R : α → α → Prop} (symm : ∀ a b, R a b → R b a) (t : Table (Option α) n)
    (a : α) (fresh : ∀ x ∈ t.held, R x a) (h : t.held.Pairwise R) : (t.putFirstFree a).held.Pairwise R := by
  by_cases free : none ∈ t.items
  · obtain ⟨below, above, split, filled⟩ := fillFirst_held a t.items free
    have held : t.held = below ++ above := split
    have put : (t.putFirstFree a).held = below ++ a :: above := filled
    rw [put, (List.perm_middle).pairwise_iff (fun {a b} => symm a b), List.pairwise_cons, ← held]
    exact ⟨fun x hx => symm _ _ (fresh x hx), h⟩
  · rw [show t.putFirstFree a = t from Table.ext_items (fillFirst_full a t.items free)]; exact h

theorem pairwise_apart {α : Type} {R : α → α → Prop} {l : List α} {a b : α} (symm : ∀ a b, R a b → R b a) (h : l.Pairwise R)
    (ha : a ∈ l) (hb : b ∈ l) (ne : a ≠ b) : R a b :=
  haveI : Std.Symm R := ⟨symm⟩
  h.forall ha hb ne

theorem mem_putFirstFree_of_mem {α : Type} {n : Nat} (t : Table (Option α) n) (a : α) {x : α} (h : x ∈ t.held) :
    x ∈ (t.putFirstFree a).held := by
  by_cases free : none ∈ t.items
  · obtain ⟨below, above, split, filled⟩ := fillFirst_held a t.items free
    have put : (t.putFirstFree a).held = below ++ a :: above := filled
    have : x ∈ below ++ above := split ▸ h
    rw [put]
    simp only [List.mem_append, List.mem_cons] at *
    exact this.imp_right .inr
  · rw [show t.putFirstFree a = t from Table.ext_items (fillFirst_full a t.items free)]; exact h

theorem scheduleDistinct_of_orders {s t : State} (h : t.orders.schedule = s.orders.schedule) (hs : ScheduleDistinct s) :
    ScheduleDistinct t := by
  unfold ScheduleDistinct liveOrders; rw [h]; exact hs

theorem scheduleDistinct_of_empty {s : State} (h : liveOrders s = []) : ScheduleDistinct s := by
  unfold ScheduleDistinct; rw [h]; exact List.Pairwise.nil

theorem scheduleDistinct_putFirstFree {s t : State} {o : Order} (h : t.orders.schedule = s.orders.schedule.putFirstFree o)
    (fresh : ∀ x ∈ liveOrders s, x.id ≠ o.id ∧ x.target ≠ o.target) (hs : ScheduleDistinct s) : ScheduleDistinct t := by
  unfold ScheduleDistinct liveOrders
  rw [h]
  exact pairwise_putFirstFree (fun _ _ ⟨id, target⟩ => ⟨id.symm, target.symm⟩) _ _ fresh hs

theorem scheduleDistinct_change {lax dirty : Prop} {s t : State} (h : Change lax dirty s t) (hs : ScheduleDistinct s) : ScheduleDistinct t := by
  cases h
  case dropOrders p _ =>
    unfold ScheduleDistinct liveOrders
    rw [Table.held_dropWhere]
    exact hs.filter _
  case clearOrders => exact scheduleDistinct_of_empty (liveOrders_cleared _ s.orders rfl)
  case toIdle => exact scheduleDistinct_of_empty (liveOrders_cleared _ s.orders rfl)
  case toLeaving => exact scheduleDistinct_of_empty (liveOrders_cleared _ s.orders rfl)
  case addOrder fresh _ => exact scheduleDistinct_putFirstFree rfl fresh hs
  case updateOrder id f same _ =>
    unfold ScheduleDistinct
    rw [liveOrders_updateOrder, List.pairwise_map]
    refine hs.imp fun {a b} ⟨id, target⟩ => ?_
    have kept : ∀ (o : Order) (p : Bool), (if p = true then f o else o).id = o.id ∧ (if p = true then f o else o).target = o.target := by
      intro o p; cases p
      · exact ⟨rfl, rfl⟩
      · exact same o
    rw [(kept a _).1, (kept b _).1, (kept a _).2, (kept b _).2]
    exact ⟨id, target⟩
  all_goals exact scheduleDistinct_of_orders rfl hs

theorem scheduleDistinct_kept : Kept True True ScheduleDistinct := ⟨scheduleDistinct_change, .inl trivial⟩

/-! ### The targets -/

/-- Every live target is ahead of the counter, or, within a boundary, equal to it. -/
def TargetsMeet (within : Prop) (s : State) : Prop :=
  ∀ g ∈ s.timer.grid, ∀ o ∈ liveOrders s, aheadOf g.counter o.target = true ∨ (within ∧ o.target = g.counter)

theorem targetsAhead_iff (s : State) : TargetsAhead s ↔ TargetsMeet False s := by
  unfold TargetsAhead TargetsMeet; simp

/-- The targets with the facts about the Schedule and the station state that they rest on. -/
def TargetsInOrder (within : Prop) (s : State) : Prop :=
  ScheduleDistinct s ∧ TimerFollowsState s ∧ TablesFollowState s ∧ TargetsMeet within s

/-- The targets stay in order while the counter is the same and no order is new. -/
theorem targetsMeet_of_fewer {within : Prop} {s t : State}
    (grid : (t.timer.grid.map fun g => g.counter) = s.timer.grid.map fun g => g.counter)
    (orders : ∀ o ∈ liveOrders t, ∃ x ∈ liveOrders s, x.target = o.target) (h : TargetsMeet within s) : TargetsMeet within t := by
  intro g hg o ho
  obtain ⟨x, hx, same⟩ := orders o ho
  have hg : t.timer.grid = some g := hg
  rw [hg] at grid
  obtain ⟨g', hg', counter⟩ := Option.map_eq_some_iff.mp grid.symm
  rw [← same, show g.counter = g'.counter from counter.symm]
  exact h g' hg' x hx

theorem targetsInOrder_kept {within : Prop} : Kept False True (TargetsInOrder within) where
  leaving := .inr fun _ h => leavingOnly_of_tables h.2.2.1
  change := by
    rintro s t h ⟨distinct, timer, tables, hs⟩
    refine ⟨scheduleDistinct_change h distinct, timerFollowsState_change h timer,
      tablesFollowState_kept.change h tables, ?_⟩
    cases h
    case dropOrders p _ =>
      refine targetsMeet_of_fewer (s := s) rfl (fun o ho => ⟨o, ?_, rfl⟩) hs
      rw [liveOrders, Table.held_dropWhere] at ho
      exact List.mem_of_mem_filter ho
    case updateOrder id f same _ =>
      refine targetsMeet_of_fewer (s := s) rfl (fun o ho => ?_) hs
      rw [liveOrders_updateOrder] at ho
      obtain ⟨x, hx, rfl⟩ := List.mem_map.mp ho
      refine ⟨x, hx, ?_⟩
      split
      · exact (same x).2.symm
      · rfl
    case addOrder o recording _ ahead =>
      rintro g hg x hx
      rcases Table.mem_held_of_mem_putFirstFree _ _ _ hx with old | rfl
      · exact hs g hg x old
      · rcases ahead with aligning | ahead
        · have hg : s.timer.grid = some g := hg
          have := timer.1
          rw [hg, aligning] at this; cases this
        · exact .inl (ahead g hg)
    case timer counter _ _ => exact targetsMeet_of_fewer (s := s) counter (fun o ho => ⟨o, ho, rfl⟩) hs
    case toArriving aligning ahead _ =>
      rintro g hg o ho
      cases hg
      exact .inl (ahead o ho)
    case found forming _ =>
      rintro g hg o ho
      have none : liveOrders s = [] := (tables.2.1 (by rw [forming]; rfl)).1
      have ho : o ∈ liveOrders s := ho
      rw [none] at ho; cases ho
    case clearOrders =>
      refine targetsMeet_of_fewer (s := s) rfl (fun o ho => ?_) hs
      rw [liveOrders_cleared _ s.orders rfl] at ho; cases ho
    case toIdle => rintro g hg; cases hg
    case toListen => rintro g hg; cases hg
    case toLeaving => rintro g hg; cases hg
    case toAligning => rintro g hg; cases hg
    all_goals exact hs

/-- The target that was ahead of the counter is ahead of the next counter, or equal to it. -/
theorem aheadOf_succ {c t : Epoch} (h : aheadOf c t = true) : aheadOf (c + 1) t = true ∨ t = c + 1 := by
  rw [aheadOf_iff] at *
  unfold epochDistance at *
  by_cases same : t = c + 1
  · exact .inr same
  · refine .inl ?_
    have : t.toNat ≠ (c + 1).toNat := fun h => same (BitVec.eq_of_toNat_eq h)
    bv_omega

theorem targetsInOrder_advance (g : Grid) (ch : Level) (s : State) (hg : s.timer.grid = some g)
    (h : TargetsInOrder False s) : TargetsInOrder True (advanceEpoch g ch s) := by
  obtain ⟨distinct, timer, tables, ahead⟩ := h
  have orders : (advanceEpoch g ch s).orders = s.orders := by rw [advanceEpoch_eq]
  refine ⟨scheduleDistinct_of_orders (by rw [orders]) distinct, timerFollowsState_advance g ch s hg timer, ?_, ?_⟩
  · rw [advanceEpoch_eq]; exact tables
  · intro x hx o ho
    rw [advanceEpoch_grid] at hx
    cases hx
    rw [liveOrders_congr orders] at ho
    rcases ahead g hg o ho with h | ⟨h, _⟩
    · exact (aheadOf_succ h).imp_right fun h => ⟨trivial, h⟩
    · exact h.elim

theorem nowEpoch_of_grid {s : State} {g : Grid} (h : s.timer.grid = some g) : nowEpoch s = g.counter := by
  simp [nowEpoch, h]

theorem liveOrders_retireOrder (id : OrderId) (s : State) :
    liveOrders (retireOrder id s) = (liveOrders s).filter fun o => !(o.id == id) := by
  unfold retireOrder
  show liveOrders (purgeOrder id (if id.origin = ownNumber s then _ else _)) = _
  rw [liveOrders_congr (purgeOrder_orders ..)]
  split <;> exact liveOrders_removeOrder id s

/-- The order of the new epoch leaves, so that every target that stays is ahead again. -/
theorem targetsMeet_of_now {s t : State} (timer : t.timer = s.timer) (orders : ∀ o ∈ liveOrders t, o ∈ liveOrders s)
    (none : ∀ o ∈ liveOrders t, o.target ≠ nowEpoch s) (h : TargetsMeet True s) : TargetsMeet False t := by
  intro g hg o ho
  rw [timer] at hg
  rcases h g hg o (orders o ho) with ahead | ⟨-, now⟩
  · exact .inl ahead
  · exact absurd (now.trans (nowEpoch_of_grid hg).symm) (none o ho)

theorem targetsInOrder_fireDue (s : State) (h : TargetsInOrder True s) : TargetsInOrder False (fireDue s) := by
  obtain ⟨distinct, timer, tables, ahead⟩ := h
  refine targetsInOrder_kept.fireDue_of s (fun none => ?_) (fun o due => ?_)
  · exact ⟨distinct, timer, tables, targetsMeet_of_now rfl (fun _ => id) (orderWithTarget_none.mp none) ahead⟩
  · obtain ⟨held, target⟩ := orderWithTarget_some due
    have retired := (targetsInOrder_kept (within := True)).retireOrder o.id s ⟨distinct, timer, tables, ahead⟩
    have sameTimer : (retireOrder o.id s).timer = s.timer := by unfold retireOrder; dsimp only; split <;> rfl
    obtain ⟨distinct', timer', tables', -⟩ := retired
    refine ⟨distinct', timer', tables', targetsMeet_of_now sameTimer (fun x hx => ?_) (fun x hx now => ?_) ahead⟩
    · rw [liveOrders_retireOrder] at hx; exact List.mem_of_mem_filter hx
    · rw [liveOrders_retireOrder, List.mem_filter] at hx
      obtain ⟨hx, other⟩ := hx
      have ne : x ≠ o := fun same => by simp [same] at other
      exact (pairwise_apart (fun _ _ ⟨id, target⟩ => ⟨id.symm, target.symm⟩) distinct hx held ne).2
        (now.trans target.symm)

/-! ### The ballots -/

theorem ballotsFollowOrders_of_none {s : State} (h : openBallots s = []) : BallotsFollowOrders s := by
  unfold BallotsFollowOrders; rw [h]; exact ⟨List.Pairwise.nil, fun b hb => by cases hb⟩

theorem subset_removeFrom {a b : StationSet} (n : StationNo) (h : subset a b = true) :
    subset (removeFrom a n) (removeFrom b n) = true := by
  rw [subset_iff] at *
  intro m hm
  rw [inSet_removeFrom, Bool.and_eq_true] at *
  exact ⟨h m hm.1, hm.2⟩

/-- The ballots with the tables and the Schedule, on which they rest. -/
def BallotsInOrder (s : State) : Prop := TablesFollowState s ∧ ScheduleDistinct s ∧ BallotsFollowOrders s

/-- The ballots stay in order while each keeps an order of its own. -/
theorem ballotsFollowOrders_of_orders {s t : State} (ballots : t.orders.ballots = s.orders.ballots)
    (profile : t.profile = s.profile)
    (orders : ∀ b ∈ openBallots s, ∀ o ∈ liveOrders s, o.id = ownId s b.seq → o.target = b.target → o.state = .pending →
      ∃ x ∈ liveOrders t, x.id = o.id ∧ x.target = o.target ∧ x.state = o.state)
    (h : BallotsFollowOrders s) : BallotsFollowOrders t := by
  obtain ⟨distinct, each⟩ := h
  unfold BallotsFollowOrders openBallots
  simp only [ownId, ownNumber, ballots, profile]
  refine ⟨distinct, fun b hb => ?_⟩
  obtain ⟨⟨o, held, id, target, pending⟩, accepted, own⟩ := each b hb
  obtain ⟨x, hx, sameId, sameTarget, sameState⟩ := orders b hb o held id target pending
  exact ⟨⟨x, hx, sameId.trans id, sameTarget.trans target, sameState.trans pending⟩, accepted, own⟩

/-- The ballots stay in order while each that stays open has its order. -/
theorem ballotsFollowOrders_map {s t : State} (f : Ballot → Ballot) (p : Ballot → Bool)
    (ballots : openBallots t = ((openBallots s).filter p).map f) (orders : liveOrders t = liveOrders s)
    (profile : t.profile = s.profile)
    (same : ∀ b ∈ openBallots s, (f b).seq = b.seq ∧ (f b).target = b.target ∧
      (subset b.accepted b.electorate = true → subset (f b).accepted (f b).electorate = true) ∧
      (inSet b.electorate (ownNumber s) = false → inSet (f b).electorate (ownNumber s) = false))
    (h : BallotsFollowOrders s) : BallotsFollowOrders t := by
  obtain ⟨distinct, each⟩ := h
  have ownSame : ownNumber t = ownNumber s := by rw [ownNumber, profile]; rfl
  refine ⟨?_, fun b hb => ?_⟩
  · rw [ballots, List.pairwise_map]
    refine (List.Pairwise.imp_of_mem ?_ (distinct.filter p))
    intro a b ha hb ne
    rw [(same a (List.mem_of_mem_filter ha)).1, (same b (List.mem_of_mem_filter hb)).1]; exact ne
  · rw [ballots] at hb
    obtain ⟨x, hx, rfl⟩ := List.mem_map.mp hb
    have hx := List.mem_of_mem_filter hx
    obtain ⟨seq, target, accepted, own⟩ := same x hx
    obtain ⟨⟨o, held, id, at_, pending⟩, subset, absent⟩ := each x hx
    refine ⟨⟨o, orders ▸ held, ?_, at_.trans target.symm, pending⟩, accepted subset, ?_⟩
    · rw [ownId, ownSame, seq]; exact id
    · rw [ownSame]; exact own absent

theorem ballotsInOrder_kept : Kept False False BallotsInOrder where
  leaving := .inr fun _ h => leavingOnly_of_tables h.1
  change := by
    rintro s t h ⟨tables, distinct, hs⟩
    have tables' := tablesFollowState_kept.change h tables
    refine ⟨tables', scheduleDistinct_change h distinct, ?_⟩
    have closed : t.membership.state ≠ .member → BallotsFollowOrders t := fun h => ballotsFollowOrders_of_none (tables'.2.2.2 h)
    cases h
    case freeBallot seq =>
      refine ballotsFollowOrders_map (s := s) id (fun b => !(b.seq == seq)) ?_ rfl rfl (fun _ _ => ⟨rfl, rfl, id, id⟩) hs
      rw [openBallots_freeBallot, List.map_id]
    case dropOrders p ballots =>
      rcases ballots with h | outside | apart
      · exact h.elim
      · exact closed outside
      · refine ballotsFollowOrders_of_orders (s := s) rfl rfl (fun b hb o ho id _ _ => ⟨o, ?_, rfl, rfl, rfl⟩) hs
        rw [liveOrders, Table.held_dropWhere, List.mem_filter]
        refine ⟨ho, ?_⟩
        cases picked : p o with
        | false => rfl
        | true => exact absurd id (apart b hb o picked)
    case clearOrders => exact ballotsFollowOrders_of_none (openBallots_cleared _ s.orders rfl)
    case addOrder o _ _ _ =>
      exact ballotsFollowOrders_of_orders (s := s) rfl rfl
        (fun b _ x hx _ _ _ => ⟨x, mem_putFirstFree_of_mem _ o hx, rfl, rfl, rfl⟩) hs
    case updateOrder id f same ballots =>
      refine ballotsFollowOrders_of_orders (s := s) rfl rfl (fun b hb o ho own _ _ => ?_) hs
      refine ⟨if o.id == id then f o else o, ?_, ?_⟩
      · rw [liveOrders_updateOrder]; exact List.mem_map.mpr ⟨o, ho, rfl⟩
      · split
        case isFalse => exact ⟨rfl, rfl, rfl⟩
        case isTrue picked =>
          refine ⟨(same o).1, (same o).2, ?_⟩
          rcases ballots with h | state | other
          · exact h.elim
          · exact state o
          · exact absurd (own.symm.trans (beq_iff_eq.mp picked)) (other b hb)
    case updateBallot seq f b same accepted found own =>
      obtain ⟨hb, hseq⟩ := ballotWithSeq_some found
      refine ballotsFollowOrders_map (s := s) (fun x => if x.seq == seq then f x else x) (fun _ => true) ?_ rfl rfl
        (fun x hx => ?_) hs
      · rw [openBallots_updateBallot, List.filter_true]
      · split
        case isFalse => exact ⟨rfl, rfl, id, id⟩
        case isTrue picked =>
          obtain rfl : x = b := by
            by_contra ne
            exact pairwise_apart (fun _ _ h => h.symm) hs.1 hx hb ne ((beq_iff_eq.mp picked).trans hseq.symm)
          refine ⟨same.1, same.2, accepted, fun absent => ?_⟩
          by_contra present
          rcases own (by simpa using present) with h | h
          · rw [absent] at h; cases h
          · rw [tables.2.2.1] at h; cases h
    case dropElector n =>
      refine ballotsFollowOrders_map (s := s) (withoutElector n) (fun _ => true) ?_ rfl rfl
        (fun b _ => ⟨rfl, rfl, subset_removeFrom n, fun absent => ?_⟩) hs
      · rw [List.filter_true]; exact Table.held_map_option ..
      · simp only [withoutElector, inSet_removeFrom, absent, Bool.false_and]
    case toIdle => exact closed (by simp [enterIdle, membershipCleared])
    case toListen => exact closed (by simp [enterListen, membershipCleared])
    case toLeaving => exact closed (by simp [enterLeaving, membershipCleared])
    case toForming => exact closed (by simp [membershipCleared])
    case toAligning => exact closed (by simp [membershipCleared])
    case toArriving => exact closed (by simp)
    case toMember arriving =>
      exact ballotsFollowOrders_of_none (s := { s with membership := _ }) (tables.2.2.2 (by rw [arriving]; decide))
    case found forming _ =>
      refine ballotsFollowOrders_of_none ?_
      exact tables.2.2.2 (by rw [forming]; decide)
    all_goals exact hs

/-! ### The Transmit Queue -/

theorem sameLimit_comm (p q : Payload) : sameLimit p q = sameLimit q p := by
  cases p <;> cases q <;> simp [sameLimit, Bool.beq_comm]

/-- Frames of one limit class are in the same classes. -/
theorem sameLimit_congr {p q : Payload} (h : sameLimit p q = true) (x : Payload) : sameLimit p x = sameLimit q x := by
  unfold sameLimit at h
  split at h
  case h_4 o q v o' q' v' =>
    obtain ⟨rfl, rfl⟩ : o = o' ∧ q = q' := by simpa using h
    cases x <;> rfl
  case h_5 => cases h
  all_goals cases x <;> rfl

/-- The queue with the tables, which say when a destination is remembered. -/
def QueueInOrder (s : State) : Prop := TablesFollowState s ∧ QueueInLimits s

/-- Frames that leave the queue leave it in order. -/
theorem queueInLimits_fewer {s t : State} (fewer : t.queue.entries.Sublist s.queue.entries)
    (next : t.queue.nextIdent = s.queue.nextIdent) (sending : t.bus.sending = s.bus.sending)
    (state : t.membership.state ≠ .leaving → s.membership.state ≠ .leaving ∨ t.queue.entries = []) (h : QueueInLimits s) :
    QueueInLimits t := by
  obtain ⟨places, apart, idents, attempt, leaving⟩ := h
  refine ⟨fewer.length_le.trans places, apart.sublist fewer, ?_, ?_, fun here e he => ?_⟩
  · rw [next]; exact fun e he => idents e (fewer.subset he)
  · rw [next, sending]; exact attempt
  · rcases state here with there | empty
    · exact leaving there e (fewer.subset he)
    · rw [empty] at he; cases he

/-- A frame taken in while a place is free and none of its limit class is held. -/
theorem queueInLimits_append (p : Payload) (s : State) (room : s.queue.entries.length < 8)
    (fresh : ∀ e ∈ s.queue.entries, sameLimit p e.payload = false)
    (leaving : isLeavingFrame p = true → s.membership.state = .leaving) (h : QueueInLimits s) :
    QueueInLimits (appendFrame p s) := by
  obtain ⟨places, apart, idents, attempt, frames⟩ := h
  refine ⟨?_, ?_, fun e he => ?_, fun a ha => Nat.lt_succ_of_lt (attempt a ha), fun here e he => ?_⟩
  · simpa [appendFrame] using room
  · refine List.pairwise_append.mpr ⟨apart, List.pairwise_singleton .., fun a ha b hb => ?_⟩
    rw [List.mem_singleton.mp hb]
    obtain ⟨age, ident⟩ := idents a ha
    exact ⟨lt_of_le_of_lt age ident, ident.ne, by rw [sameLimit_comm]; exact fresh a ha⟩
  · rcases List.mem_append.mp he with old | new
    · exact ⟨(idents e old).1, Nat.lt_succ_of_lt (idents e old).2⟩
    · rw [List.mem_singleton.mp new]; exact ⟨le_rfl, Nat.lt_succ_self _⟩
  · rcases List.mem_append.mp he with old | new
    · exact frames here e old
    · rw [List.mem_singleton.mp new]
      cases isLeaving : isLeavingFrame p with
      | false => rfl
      | true => exact absurd (leaving isLeaving) here

/-- The entry that stands in the place of `e` once the frame `old` has been replaced. -/
def replacedEntry (p : Payload) (old : QueueEntry) (next : Nat) (e : QueueEntry) : QueueEntry :=
  if e.ident == old.ident then ⟨next, e.age, p⟩ else e

/-- A frame replaced in place by one of its limit class. -/
theorem queueInLimits_replace (p : Payload) (old : QueueEntry) (s : State) (held : old ∈ s.queue.entries)
    (same : sameLimit p old.payload = true) (leaving : isLeavingFrame p = true → s.membership.state = .leaving)
    (h : QueueInLimits s) : QueueInLimits { s with queue :=
      { entries := s.queue.entries.map (replacedEntry p old s.queue.nextIdent), nextIdent := s.queue.nextIdent + 1 } } := by
  obtain ⟨places, apart, idents, attempt, frames⟩ := h
  have symm : ∀ a b : QueueEntry, a.ident ≠ b.ident → b.ident ≠ a.ident := fun _ _ h => h.symm
  have isOld : ∀ e ∈ s.queue.entries, e.ident = old.ident → e = old := by
    intro e he hident
    by_contra ne
    exact pairwise_apart symm (apart.imp fun ⟨_, h, _⟩ => h) he held ne hident
  have limit : ∀ e ∈ s.queue.entries, ∀ x,
      sameLimit (replacedEntry p old s.queue.nextIdent e).payload x = sameLimit e.payload x := by
    intro e he x
    unfold replacedEntry
    split
    case isTrue picked => rw [isOld e he (beq_iff_eq.mp picked)]; exact sameLimit_congr same x
    case isFalse => rfl
  have age : ∀ e, (replacedEntry p old s.queue.nextIdent e).age = e.age := by
    intro e; unfold replacedEntry; split <;> rfl
  refine ⟨by simpa using places, ?_, fun e he => ?_, fun a ha => Nat.lt_succ_of_lt (attempt a ha), fun here e he => ?_⟩
  · rw [List.pairwise_map]
    refine apart.imp_of_mem fun {a b} ha hb ⟨older, ident, apart⟩ => ⟨by rw [age, age]; exact older, ?_, ?_⟩
    · unfold replacedEntry
      split
      case isTrue first =>
        split
        case isTrue second => exact absurd ((beq_iff_eq.mp first).trans (beq_iff_eq.mp second).symm) ident
        case isFalse => exact (idents b hb).2.ne'
      case isFalse =>
        split
        case isTrue => exact (idents a ha).2.ne
        case isFalse => exact ident
    · rw [limit a ha, sameLimit_comm, limit b hb, sameLimit_comm]; exact apart
  · obtain ⟨x, hx, rfl⟩ := List.mem_map.mp he
    have ⟨agedBefore, below⟩ := idents x hx
    unfold replacedEntry
    split
    · exact ⟨le_trans agedBefore below.le, Nat.lt_succ_self _⟩
    · exact ⟨agedBefore, Nat.lt_succ_of_lt below⟩
  · obtain ⟨x, hx, rfl⟩ := List.mem_map.mp he
    unfold replacedEntry
    split
    · cases isLeaving : isLeavingFrame p with
      | false => rfl
      | true => exact absurd (leaving isLeaving) here
    · exact frames here x hx

theorem queueInOrder_kept {dirty : Prop} : Kept False dirty QueueInOrder where
  leaving := .inr fun _ h => leavingOnly_of_tables h.1
  change := by
    rintro s t h ⟨tables, hs⟩
    refine ⟨tablesFollowState_kept.change h tables, ?_⟩
    have ⟨places, apart, idents, attempt, frames⟩ := hs
    cases h
    case bus b sending _ _ =>
      refine ⟨places, apart, idents, fun a ha => ?_, frames⟩
      rcases sending a ha with ⟨x, hx, ident⟩ | ⟨e, he, ident⟩
      · rw [← ident]; exact attempt x hx
      · rw [← ident]; exact (idents e he).2
    case drop entries fewer => exact queueInLimits_fewer (s := s) fewer rfl rfl .inl hs
    case append p room fresh leaving => exact queueInLimits_append p s room fresh leaving hs
    case displace p ident held fresh leaving =>
      obtain ⟨e, he, rfl⟩ := held
      refine queueInLimits_append p _ ?_ (fun x hx => fresh x (List.mem_of_mem_filter hx)) leaving
        (queueInLimits_fewer (s := s) List.filter_sublist rfl rfl .inl hs)
      have : (s.queue.entries.filter fun x => x.ident != e.ident).length < s.queue.entries.length :=
        List.length_filter_lt_length_iff_exists.mpr ⟨e, he, by simp⟩
      exact lt_of_lt_of_le this places
    case replace p old same held leaving => exact queueInLimits_replace p old s held same leaving hs
    case membership m state _ _ _ => exact ⟨places, apart, idents, attempt, fun h => frames (state ▸ h)⟩
    case toIdle =>
      exact ⟨Nat.zero_le _, List.Pairwise.nil, fun e he => by simp [enterIdle] at he,
        fun a ha => by simp [enterIdle, busStopped] at ha, fun _ e he => by simp [enterIdle] at he⟩
    case toListen keep _ _ queue => exact queueInLimits_fewer (s := s) (List.Sublist.refl _) rfl rfl (fun _ => queue) hs
    case toLeaving => exact ⟨places, apart, idents, attempt, fun h => absurd rfl h⟩
    case toForming listen =>
      exact queueInLimits_fewer (s := s) (List.Sublist.refl _) rfl rfl (fun _ => .inl (by rw [listen]; decide)) hs
    case toAligning state =>
      have : s.membership.state ≠ .leaving := by rcases state with h | h <;> rw [h] <;> decide
      exact queueInLimits_fewer (s := s) (List.Sublist.refl _) rfl rfl (fun _ => .inl this) hs
    case toArriving aligning _ _ =>
      exact queueInLimits_fewer (s := s) (List.Sublist.refl _) rfl rfl (fun _ => .inl (by rw [aligning]; decide)) hs
    case toMember arriving =>
      exact queueInLimits_fewer (s := s) (List.Sublist.refl _) rfl rfl (fun _ => .inl (by rw [arriving]; decide)) hs
    case found forming _ =>
      exact queueInLimits_fewer (s := s) (List.Sublist.refl _) rfl rfl (fun _ => .inl (by rw [forming]; decide)) hs
    all_goals exact hs

end Sys2Proof.Machine
end
section
/-! The statements about every command and every step. -/

namespace Sys2Proof.Machine

open Sys2Proof

/-! ### Every command -/

/-- Settles O1. -/
theorem stepRunsTheFrontCommand : Obligations.StepRunsTheFrontCommand :=
  ⟨fun _ _ _ => rfl, fun s idle => by unfold step; rw [idle]⟩

theorem exec_completes (c : Instr) (s : State) : ∃ t, exec c s = .next t := by cases c <;> exact ⟨_, rfl⟩

/-- The clock, the pins and the waiting commands are as in another state. -/
def SamePins (s t : State) : Prop :=
  t.pending = s.pending ∧ t.clock = s.clock ∧ t.localPort = s.localPort ∧ t.resetPin = s.resetPin ∧ t.inputs = s.inputs

theorem samePins_kept (s : State) : Kept True True (SamePins s) where
  leaving := .inl trivial
  change := by
    rintro t u h ht
    cases h <;> exact ht

theorem samePins_advance (g : Grid) (ch : Level) (s : State) : SamePins s (advanceEpoch g ch s) := by
  rw [advanceEpoch_eq]; exact ⟨rfl, rfl, rfl, rfl, rfl⟩

theorem exec_samePins (c : Instr) (s : State) (reset : c ≠ .powerOnReset) (clock : c ≠ .carrierSample) {t : State}
    (h : exec c s = .next t) : SamePins s t := by
  have hs : SamePins s s := ⟨rfl, rfl, rfl, rfl, rfl⟩
  by_cases request : isRequest c = true
  · exact (samePins_kept s).request c s request
      ⟨fun _ _ h => h, fun _ _ _ _ => hs, fun _ _ => hs, fun _ _ _ _ _ _ _ _ _ => hs⟩ hs h
  · exact (samePins_kept s).exec c s (by simpa using request) reset clock (.inl trivial)
      (fun ch g _ _ => (samePins_kept s).boundaryActions (samePins_advance g ch s)) hs h

theorem exec_pending (c : Instr) (s : State) {t : State} (h : exec c s = .next t) : t.pending = s.pending := by
  rcases eq_or_ne c .powerOnReset with rfl | notReset
  · obtain rfl := Host.Outcome.next.inj h; rfl
  · rcases eq_or_ne c .carrierSample with rfl | notClock
    · have kept : Kept True True fun t => t.pending = s.pending := ⟨fun h ht => by cases h <;> exact ht, .inl trivial⟩
      exact kept.carrierSample s (fun _ _ => rfl) (fun _ h => h) rfl h
    · exact (exec_samePins c s notReset notClock h).1

/-- Settles O2. -/
theorem everyCommandCompletes : Obligations.EveryCommandCompletes := fun c s => by
  obtain ⟨t, h⟩ := exec_completes c s
  exact ⟨t, h, exec_pending c s h, fun reset clock => (exec_samePins c s reset clock h).2⟩

theorem sameProfileAndTones_kept (s : State) :
    Kept True True fun t => t.profile = s.profile ∧ t.carrier.tones = s.carrier.tones where
  leaving := .inl trivial
  change := by
    rintro t u h ht
    cases h
    case carrier same _ => exact ⟨ht.1, same.trans ht.2⟩
    all_goals exact ht

/-- Settles O3: no change but those of two requests in IDLE and a reset touches the profile or a tone entry. -/
theorem profileAndTonesChangeOnlyInIdle : Obligations.ProfileAndTonesChangeOnlyInIdle := by
  intro c s t h busy notReset high
  have k := sameProfileAndTones_kept s
  have same : s.profile = s.profile ∧ s.carrier.tones = s.carrier.tones := ⟨rfl, rfl⟩
  by_cases request : isRequest c = true
  · exact k.request c s request ⟨fun _ _ h => h, fun _ _ _ idle => absurd idle busy, fun _ idle => absurd idle busy,
      fun _ _ _ _ _ _ _ _ _ => same⟩ same h
  · rcases eq_or_ne c .carrierSample with rfl | notClock
    · exact k.carrierSample s (fun low => by rw [high rfl] at low; cases low) (fun _ h => h) same h
    · exact k.exec c s (by simpa using request) notReset notClock (.inl trivial)
        (fun ch g _ _ => k.boundaryActions (by rw [advanceEpoch_eq]; exact same)) same h

/-! ### The state after reset -/

theorem tablesFollowState_reset : TablesFollowState State.reset :=
  ⟨by decide, fun _ => ⟨Table.held_fill, fun _ => Table.get_fill ..⟩, Table.get_fill .., fun _ => Table.held_fill⟩

theorem timerFollowsState_reset : TimerFollowsState State.reset := by decide

theorem scheduleDistinct_reset : ScheduleDistinct State.reset := scheduleDistinct_of_empty Table.held_fill

theorem targetsAhead_reset : TargetsAhead State.reset := fun _ hg => by cases hg

theorem queueInLimits_reset : QueueInLimits State.reset :=
  ⟨Nat.zero_le _, List.Pairwise.nil, by simp [State.reset], by simp [State.reset], by simp [State.reset]⟩

theorem carrierFollowsState_reset : CarrierFollowsState State.reset :=
  ⟨fun _ => ⟨rfl, rfl, rfl, rfl, rfl, by simp [State.reset]⟩, fun h => absurd rfl h, Nat.zero_le _⟩

theorem profileInRange_reset : ProfileInRange State.reset := by decide

theorem gridInRange_reset : GridInRange State.reset := fun _ hg => by cases hg

theorem monitorBounded_reset : MonitorBounded State.reset := by decide

theorem countsInRange_reset : CountsInRange State.reset := by decide

/-- Settles O4: the state after reset holds no counter, order, ballot or frame, and its counts are 0. -/
theorem resetMeetsTheInvariants : Obligations.ResetMeetsTheInvariants :=
  ⟨profileInRange_reset, gridInRange_reset, monitorBounded_reset, timerFollowsState_reset, tablesFollowState_reset,
    carrierFollowsState_reset, scheduleDistinct_reset, targetsAhead_reset, ballotsFollowOrders_of_none Table.held_fill,
    queueInLimits_reset, countsInRange_reset⟩

/-! ### The ranges -/

theorem profileInRange_setParameter {id value : Nat} (s : State) (h : parameterInRange id value = true)
    (hs : ProfileInRange s) : ProfileInRange { s with profile := setParameter s.profile id value } := by
  intro k hk
  show parameterInRange k (parameterValue (setParameter s.profile id value) k) = true
  rcases eq_or_ne k id with rfl | other
  · rw [parameterValue_setParameter _ h]; exact h
  · rw [parameterValue_setParameter_other _ _ other]; exact hs k hk

theorem step_profileInRange {s t : State} (h : step s = .next t) (hs : ProfileInRange s) : ProfileInRange t :=
  profileInRange_kept.step (fun _ _ _ _ _ _ _ h => h) s (.inl trivial)
    (fun u hu => ⟨fun _ _ h => h, fun _ _ range _ => profileInRange_setParameter u range hu, fun _ _ => hu,
      fun _ _ _ _ _ _ _ _ _ => hu⟩)
    (fun u ch g hu _ _ => profileInRange_kept.boundaryActions (by rw [advanceEpoch_eq]; exact hu))
    profileInRange_reset hs h

theorem step_monitorBounded {s t : State} (h : step s = .next t) (hs : MonitorBounded s) : MonitorBounded t :=
  monitorBounded_kept.step (fun _ _ _ _ _ _ _ h => h) s (.inl trivial)
    (fun _ hu => ⟨fun _ _ h => h, fun _ _ _ _ => hu, fun _ _ => hu, fun _ _ _ _ _ _ _ _ _ => hu⟩)
    (fun u ch g hu _ _ => monitorBounded_kept.boundaryActions (by rw [advanceEpoch_eq]; exact hu))
    monitorBounded_reset hs h

theorem countsInRange_profile (s : State) (p : Profile) (idle : s.membership.state = .idle) (h : CountsInRange s) :
    CountsInRange { s with profile := p } := by
  obtain ⟨idleCount, attempts, withdrawals, marks, -, others⟩ := h
  have quiet : s.membership.quiet = 0 := (others (by rw [idle]; decide)).2
  exact ⟨idleCount, attempts, withdrawals, marks, quiet ▸ Nat.zero_le _, others⟩

theorem step_countsInRange {s t : State} (h : step s = .next t) (hs : CountsInRange s) : CountsInRange t :=
  countsInRange_kept.step (fun _ _ _ _ _ _ _ h => h) s (.inl trivial)
    (fun u hu => ⟨fun _ _ h => h, fun _ _ _ idle => countsInRange_profile u _ idle hu, fun _ _ => hu,
      fun _ _ _ _ _ _ _ _ _ => hu⟩)
    (fun u ch g hu _ _ => countsInRange_kept.boundaryActions (by rw [advanceEpoch_eq]; exact hu))
    countsInRange_reset hs h

theorem step_timerFollowsState {s t : State} (h : step s = .next t) (hs : TimerFollowsState s) : TimerFollowsState t :=
  timerFollowsState_kept.step (fun _ _ _ _ _ _ _ h => h) s (.inl trivial)
    (fun _ hu => ⟨fun _ _ h => h, fun _ _ _ _ => hu, fun _ _ => hu, fun _ _ _ _ _ _ _ _ _ => hu⟩)
    (fun u ch g hu hg _ => timerFollowsState_kept.boundaryActions (timerFollowsState_advance g ch u hg hu))
    timerFollowsState_reset hs h

theorem phaseInRange_profile {id value : Nat} (s : State) (h : parameterInRange id value = true)
    (idle : s.membership.state = .idle) (hs : PhaseInRange s) :
    PhaseInRange { s with profile := setParameter s.profile id value } := by
  obtain ⟨profile, timer, -⟩ := hs
  refine ⟨profileInRange_setParameter s h profile, timer, fun g hg => ?_⟩
  have hg : s.timer.grid = some g := hg
  have := timer.1
  rw [hg, idle] at this; cases this

theorem step_phaseInRange {s t : State} (h : step s = .next t) (hs : PhaseInRange s) : PhaseInRange t :=
  phaseInRange_kept.step (fun _ _ _ _ _ _ _ h => h) s (.inl trivial)
    (fun u hu => ⟨fun _ _ h => h, fun _ _ range idle => phaseInRange_profile u range idle hu, fun _ _ => hu,
      fun _ _ _ _ _ _ _ _ _ => hu⟩)
    (fun u ch g hu hg _ => phaseInRange_kept.boundaryActions (phaseInRange_advance g ch u hg hu))
    ⟨profileInRange_reset, timerFollowsState_reset, gridInRange_reset⟩ hs h

/-- Settles O5: each range is kept by every change. -/
theorem stepKeepsEveryCountInItsRange : Obligations.StepKeepsEveryCountInItsRange := fun _ _ h =>
  ⟨step_profileInRange h, fun profile timer grid => (step_phaseInRange h ⟨profile, timer, grid⟩).2.2,
    step_monitorBounded h, step_countsInRange h⟩

/-- Settles O6. -/
theorem stepKeepsTheTimerWithTheState : Obligations.StepKeepsTheTimerWithTheState := fun _ _ hs h =>
  step_timerFollowsState h hs

/-! ### The tables and the carrier -/

/-- A new parameter in IDLE, the own number among them, leaves the tables with the state: the Roster is empty there. -/
theorem tablesFollowState_profile (s : State) (p : Profile) (idle : s.membership.state = .idle) (h : TablesFollowState s) :
    TablesFollowState { s with profile := p } := by
  obtain ⟨leaving, quiet, -, ballots⟩ := h
  have empty := quiet (by rw [idle]; rfl)
  exact ⟨leaving, quiet, empty.2 _, ballots⟩

theorem tablesFollowState_submitted (target : Epoch) (mask : GroupMask) (tone : ToneIndex) (mode : PhaseMode) (s : State)
    (member : s.membership.state = .member) (h : TablesFollowState s) :
    TablesFollowState (submitted target mask tone mode s) := by
  obtain ⟨leaving, -, own, -⟩ := h
  refine ⟨leaving, fun outside => ?_, own, fun outside => absurd member outside⟩
  have : recordingState s.membership.state = false := outside
  rw [member] at this; cases this

theorem tablesFollowState_requests (u : State) (hu : TablesFollowState u) : KeptByRequests TablesFollowState u :=
  ⟨fun _ _ h => h, fun _ _ _ idle => tablesFollowState_profile u _ idle hu, fun _ _ => hu,
    fun _ _ _ _ member _ _ _ _ => tablesFollowState_submitted _ _ _ _ u member hu⟩

theorem step_tablesFollowState {s t : State} (h : step s = .next t) (hs : TablesFollowState s) : TablesFollowState t :=
  (tablesFollowState_kept (dirty := True)).step (fun _ _ _ _ _ _ _ h => h) s (.inl trivial) tablesFollowState_requests
    (fun u ch g hu _ _ => (tablesFollowState_kept (dirty := True)).boundaryActions (by rw [advanceEpoch_eq]; exact hu))
    tablesFollowState_reset hs h

/-- Settles O7. -/
theorem stepKeepsQuietStatesEmpty : Obligations.StepKeepsQuietStatesEmpty := fun _ _ hs h => step_tablesFollowState h hs

theorem step_carrierAndTables {s t : State} (h : step s = .next t) (hs : CarrierAndTables s) : CarrierAndTables t :=
  (carrierAndTables_kept (dirty := True)).step (fun _ _ _ _ _ _ _ h => h) s (.inl trivial)
    (fun u hu => ⟨fun _ _ h => h, fun _ _ _ idle => ⟨tablesFollowState_profile u _ idle hu.1, hu.2⟩, fun _ _ => hu,
      fun _ _ _ _ member _ _ _ _ => ⟨tablesFollowState_submitted _ _ _ _ u member hu.1, hu.2⟩⟩)
    (fun u ch g hu _ _ => (carrierAndTables_kept (dirty := True)).boundaryActions (by rw [advanceEpoch_eq]; exact hu))
    ⟨tablesFollowState_reset, carrierFollowsState_reset⟩ hs h

/-- Settles O8: the tables say that a station comes to IDLE or LISTEN only with its carrier reset. -/
theorem stepKeepsTheCarrierSilentOutsideTheCohort : Obligations.StepKeepsTheCarrierSilentOutsideTheCohort :=
  fun _ _ tables carrier h => (step_carrierAndTables h ⟨tables, carrier⟩).2

/-! ### The Schedule -/

theorem scheduleDistinct_submitted (target : Epoch) (mask : GroupMask) (tone : ToneIndex) (mode : PhaseMode) (s : State)
    (targets : ∀ o ∈ liveOrders s, o.target ≠ target) (h : ScheduleDistinct s) :
    ScheduleDistinct (submitted target mask tone mode s) :=
  scheduleDistinct_putFirstFree rfl (fun x hx => ⟨nextSequence_fresh s x hx, targets x hx⟩) h

theorem step_scheduleDistinct {s t : State} (h : step s = .next t) (hs : ScheduleDistinct s) : ScheduleDistinct t :=
  scheduleDistinct_kept.step (fun _ _ _ _ _ _ _ h => h) s (.inl trivial)
    (fun u hu => ⟨fun _ _ h => h, fun _ _ _ _ => hu, fun _ _ => hu,
      fun _ _ _ _ _ _ _ targets _ => scheduleDistinct_submitted _ _ _ _ u targets hu⟩)
    (fun u ch g hu _ _ => scheduleDistinct_kept.boundaryActions (by rw [advanceEpoch_eq]; exact hu))
    scheduleDistinct_reset hs h

theorem targetsInOrder_submitted (target : Epoch) (mask : GroupMask) (tone : ToneIndex) (mode : PhaseMode) (s : State)
    (member : s.membership.state = .member) (targets : ∀ o ∈ liveOrders s, o.target ≠ target)
    (lead : leadAccepted s (nowEpoch s) target = true) (h : TargetsInOrder False s) :
    TargetsInOrder False (submitted target mask tone mode s) := by
  obtain ⟨distinct, timer, tables, ahead⟩ := h
  refine ⟨scheduleDistinct_submitted _ _ _ _ s targets distinct, timer, tablesFollowState_submitted _ _ _ _ s member tables,
    fun g hg o ho => ?_⟩
  rcases Table.mem_held_of_mem_putFirstFree _ _ _ ho with old | rfl
  · exact ahead g hg o old
  · have hg : s.timer.grid = some g := hg
    exact .inl (nowEpoch_of_grid hg ▸ aheadOf_of_leadAccepted lead)

theorem step_targetsInOrder {s t : State} (h : step s = .next t) (hs : TargetsInOrder False s) : TargetsInOrder False t :=
  targetsInOrder_kept.step (fun _ _ _ _ _ _ _ h => h) s (.inl trivial)
    (fun u ⟨distinct, timer, tables, ahead⟩ => ⟨fun _ _ h => h,
      fun _ _ _ idle => ⟨distinct, timer, tablesFollowState_profile u _ idle tables, ahead⟩,
      fun _ _ => ⟨distinct, timer, tables, ahead⟩,
      fun _ _ _ _ member _ _ targets lead =>
        targetsInOrder_submitted _ _ _ _ u member targets lead ⟨distinct, timer, tables, ahead⟩⟩)
    (fun u ch g hu hg _ => targetsInOrder_fireDue _
      (targetsInOrder_kept.voteClose _ (targetsInOrder_advance g ch u hg hu)))
    ⟨scheduleDistinct_reset, timerFollowsState_reset, tablesFollowState_reset, (targetsAhead_iff _).mp targetsAhead_reset⟩ hs h

/-- Settles O9: within a boundary a target may be equal to the counter, until the order of the new epoch has left. -/
theorem stepKeepsTheScheduleInOrder : Obligations.StepKeepsTheScheduleInOrder := fun s t h =>
  ⟨step_scheduleDistinct h, fun distinct timer tables ahead =>
    (targetsAhead_iff t).mpr (step_targetsInOrder h ⟨distinct, timer, tables, (targetsAhead_iff s).mp ahead⟩).2.2.2⟩

/-! ### The ballots -/

theorem ballotsInOrder_submitted (target : Epoch) (mask : GroupMask) (tone : ToneIndex) (mode : PhaseMode) (s : State)
    (member : s.membership.state = .member) (ballots : (openBallots s).length < 4) (orders : (liveOrders s).length < 16)
    (targets : ∀ o ∈ liveOrders s, o.target ≠ target) (h : BallotsInOrder s) :
    BallotsInOrder (submitted target mask tone mode s) := by
  obtain ⟨tables, distinct, apart, each⟩ := h
  refine ⟨tablesFollowState_submitted _ _ _ _ s member tables, scheduleDistinct_submitted _ _ _ _ s targets distinct, ?_,
    fun b hb => ?_⟩
  · refine pairwise_putFirstFree (fun _ _ h => h.symm) _ _ (fun b hb same => ?_) apart
    obtain ⟨⟨o, held, id, -⟩, -⟩ := each b hb
    exact nextSequence_fresh s o held (id.trans (congrArg (ownId s) same))
  · rcases (Table.mem_held_putFirstFree _ _ _ ballots).mp hb with old | rfl
    · obtain ⟨⟨o, held, facts⟩, rest⟩ := each b old
      exact ⟨⟨o, mem_putFirstFree_of_mem _ _ held, facts⟩, rest⟩
    · exact ⟨⟨_, (Table.mem_held_putFirstFree _ _ _ orders).mpr (.inr rfl), rfl, rfl, rfl⟩, (subset_iff 0 0).mpr fun _ => id, inSet_zero _⟩

theorem ballotsInOrder_profile (s : State) (p : Profile) (idle : s.membership.state = .idle) (h : BallotsInOrder s) :
    BallotsInOrder { s with profile := p } := by
  obtain ⟨tables, distinct, -⟩ := h
  exact ⟨tablesFollowState_profile s p idle tables, distinct,
    ballotsFollowOrders_of_none (tables.2.2.2 (by rw [idle]; decide))⟩

/-- A property of a state other than MEMBER is kept by losses. -/
theorem notMember_keptByLosses : KeptByLosses fun t => t.membership.state ≠ .member := by
  constructor
  case leave =>
    intro t h
    unfold endLeaving
    split
    · exact h
    · split
      · exact StationState.noConfusion
      · exact StationState.noConfusion
  all_goals intros; assumption

/-- A withdrawal leaves MEMBER. -/
theorem withdraw_notMember (cause : Cause) (s : State) : (withdraw cause s).membership.state ≠ .member := by
  unfold withdraw
  split
  case isFalse stays => exact fun member => stays (by rw [member]; rfl)
  case isTrue =>
    have left : ∀ d, (purgeForLeaving (abandonOrders (enterLeaving cause d (withdrawNotice cause s)))).membership.state ≠
        .member := by
      intro d
      show (abandonOrders (enterLeaving cause d (withdrawNotice cause s))).membership.state ≠ .member
      rw [(abandonOrders_keeps _).2.1]
      exact StationState.noConfusion
    dsimp only
    split
    · exact notMember_keptByLosses.leave _ (left _)
    · exact offer_keeps notMember_keptByLosses _ _ (left _)

/-- The report of a duplicate number finds the station outside MEMBER at its end. -/
theorem duplicateNumber_notMember (was : StationState) (s : State) (tables : TablesFollowState s) :
    (duplicateNumber was s).membership.state ≠ .member := by
  unfold duplicateNumber
  split
  · exact StationState.noConfusion
  · split
    case h_1 l remembered =>
      have leaving : s.membership.state = .leaving := leavingOnly_of_tables tables (by rw [remembered]; rfl)
      show s.membership.state ≠ .member
      rw [leaving]; decide
    case h_2 => exact withdraw_notMember _ _

theorem accepted_own_notMember {n : StationNo} {p : Payload} {c : Instr} (hc : c.acceptedFrame = some (n, p)) (s : State)
    (own : n = ownNumber s) (tables : TablesFollowState s) {t : State} (h : exec c s = .next t) :
    t = s ∨ t.membership.state ≠ .member := by
  rw [exec_accepted hc] at h
  obtain rfl := Host.Outcome.next.inj h
  unfold accepted
  split
  case isFalse => exact .inl rfl
  case isTrue =>
    refine .inr ?_
    dsimp only
    exact duplicateNumber_notMember _ _ ((tablesFollowState_kept (dirty := True)).deliveryOf c s _ (.inl trivial)
      ((tablesFollowState_kept (dirty := True)).frameEnds s tables))

theorem step_ballotsInOrder {s t : State} (h : step s = .next t) (hs : BallotsInOrder s) : BallotsFollowOrders t := by
  by_cases own : ∃ c ∈ s.pending.head?, ∃ p, c.acceptedFrame = some (ownNumber s, p)
  · obtain ⟨c, hc, p, frame⟩ := own
    rcases step_cases h with rfl | ⟨d, rest, waiting, run⟩
    · exact hs.2.2
    · obtain rfl : d = c := by rw [waiting] at hc; exact Option.some.inj hc
      rcases accepted_own_notMember frame { s with pending := rest } rfl hs.1 run with rfl | outside
      · exact hs.2.2
      · exact ballotsFollowOrders_of_none ((step_tablesFollowState h hs.1).2.2.2 outside)
  · have foreign : ∀ c ∈ s.pending.head?, ∀ n p, c.acceptedFrame = some (n, p) → n ≠ ownNumber s := by
      rintro c hc n p frame rfl
      exact own ⟨c, hc, p, frame⟩
    refine (ballotsInOrder_kept.step (fun _ _ _ _ _ _ _ h => h) s (.inr foreign)
      (fun u hu => ⟨fun _ _ h => h, fun _ _ _ idle => ballotsInOrder_profile u _ idle hu, fun _ _ => hu,
        fun _ _ _ _ member ballots orders targets _ => ballotsInOrder_submitted _ _ _ _ u member ballots orders targets hu⟩)
      (fun u ch g hu _ _ => ballotsInOrder_kept.boundaryActions (by rw [advanceEpoch_eq]; exact hu))
      ⟨tablesFollowState_reset, scheduleDistinct_reset, ballotsFollowOrders_of_none Table.held_fill⟩ hs h).2.2

/-- Settles O10: a frame with the own number, which may end an own order without its ballot, takes the station out of
MEMBER. -/
theorem stepKeepsBallotsWithTheirOrders : Obligations.StepKeepsBallotsWithTheirOrders :=
  fun _ _ tables distinct ballots h => step_ballotsInOrder h ⟨tables, distinct, ballots⟩

/-! ### The Transmit Queue -/

theorem step_queueInOrder {s t : State} (h : step s = .next t) (hs : QueueInOrder s) : QueueInOrder t :=
  (queueInOrder_kept (dirty := True)).step (fun _ _ _ _ _ _ _ h => h) s (.inl trivial)
    (fun u hu => ⟨fun _ _ h => h, fun _ _ _ idle => ⟨tablesFollowState_profile u _ idle hu.1, hu.2⟩, fun _ _ => hu,
      fun _ _ _ _ member _ _ _ _ => ⟨tablesFollowState_submitted _ _ _ _ u member hu.1, hu.2⟩⟩)
    (fun u ch g hu _ _ => (queueInOrder_kept (dirty := True)).boundaryActions (by rw [advanceEpoch_eq]; exact hu))
    ⟨tablesFollowState_reset, queueInLimits_reset⟩ hs h

/-- Settles O11. -/
theorem stepKeepsTheQueueInItsLimits : Obligations.StepKeepsTheQueueInItsLimits :=
  fun _ _ tables queue h => (step_queueInOrder h ⟨tables, queue⟩).2

end Sys2Proof.Machine
end
section
/-! The requests LOAD_PARAMETER, START, STOP, RESTART, WITHDRAW and VETO by their conditions, notices and tallies, and the
return to LISTEN. -/

namespace Sys2Proof.Machine

/-! ### LOAD_PARAMETER (R177) -/

/-- Settles O14. -/
theorem loadParameterSetsOneParameter : Obligations.LoadParameterSetsOneParameter := by
  intro id value s taken
  have run : exec (.loadParameter id value) s = .next (taking (.loadParameter id value) s _) := rfl
  rw [taking_of _ taken] at run
  rw [run]
  refine ⟨fun out => ?_, fun range busy => ?_, fun range idle => ⟨setParameter s.profile id.toNat value.toNat, ?_,
    parameterValue_setParameter _ range, fun k other => parameterValue_setParameter_other _ _ other⟩⟩
  · rw [if_pos (by rw [out]; rfl)]; rfl
  · rw [if_neg (by simp [range]), if_pos busy]; rfl
  · rw [if_neg (by simp [range]), if_neg (not_not.mpr idle)]; rfl

/-! ### START, STOP and RESTART (R88, R89, R179) -/

/-- Settles O16. -/
theorem startEntersListen : Obligations.StartEntersListen := by
  intro s taken
  refine ⟨fun busy => ?_, fun idle rest => exec_start_of_noRestTone taken idle rest, fun idle rest => ?_⟩
  · rw [exec_start, execStart, taking_of _ taken, if_pos busy]; rfl
  · rw [exec_start, execStart, taking_of _ taken, if_neg (not_not.mpr idle), if_neg (by simp [rest])]
    exact ⟨_, rfl, rfl, rfl, rfl, rfl, rfl, rfl, fun _ => Table.get_fill .., rfl, rfl, rfl, rfl, rfl, rfl, rfl, rfl, rfl, rfl, rfl⟩

/-- An IDLE station holds no order, ballot, peer, frame, claim or counter. -/
theorem enterIdle_empty (s : State) : liveOrders (enterIdle s) = [] ∧ openBallots (enterIdle s) = [] ∧
    (∀ n, rosterEntry (enterIdle s) n = RosterEntry.absent) ∧ (enterIdle s).queue.entries = [] :=
  ⟨liveOrders_cleared _ s.orders rfl, openBallots_cleared _ s.orders rfl, fun _ => Table.get_fill .., rfl⟩

/-- Settles O17. -/
theorem stopFollowsTheState : Obligations.StopFollowsTheState := by
  intro s taken
  have run : exec .stop s = .next (taking .stop s _) := rfl
  rw [taking_of _ taken] at run
  rw [run]
  refine ⟨fun idle => by rw [idle]; rfl, fun state => ?_, fun state => ?_, fun leaving => by rw [leaving]; rfl⟩
  · obtain ⟨orders, ballots, roster, queue⟩ := enterIdle_empty s
    refine ⟨respond 0x05 .ok [] (enterIdle s), ?_, rfl, rfl, orders, ballots, roster, rfl, rfl, rfl, rfl, queue, rfl, rfl,
      rfl, rfl, rfl, rfl, rfl, rfl, rfl, rfl⟩
    rcases state with listen | aligning
    · rw [listen]
    · rw [aligning]
  · rcases state with forming | arriving | member
    · rw [forming]; rfl
    · rw [arriving]; rfl
    · rw [member]; rfl

/-- Settles O18. -/
theorem restartKeepsOnlyItsRecords : Obligations.RestartKeepsOnlyItsRecords := by
  intro s taken
  have run : exec .restart s = .next (taking .restart s _) := rfl
  rw [taking_of _ taken] at run
  obtain ⟨orders, ballots, roster, queue⟩ := enterIdle_empty s
  have formation : formationSize (Table.fill 32 none) = 0 := by simp [formationSize]
  exact ⟨_, run, rfl, rfl, rfl, rfl, rfl, rfl, rfl, rfl, rfl, orders, ballots, roster, formation, rfl, rfl, rfl, rfl, queue,
    rfl, rfl, rfl, rfl, rfl, rfl, rfl, rfl⟩

/-! ### WITHDRAW and VETO (R14, R65) -/

/-- Settles O20. -/
theorem withdrawFollowsItsConditions : Obligations.WithdrawFollowsItsConditions := by
  intro seq s taken
  have run : exec (.withdraw seq) s = .next (taking (.withdraw seq) s _) := rfl
  rw [taking_of _ taken] at run
  rw [run]
  refine ⟨fun outside => by rw [if_pos outside]; rfl, fun member b found => ?_, fun member none => ?_⟩
  · rw [if_neg (not_not.mpr member), found]
    obtain ⟨-, rfl⟩ := ballotWithSeq_some found
    exact ⟨fun sent => by simp only [if_pos sent]; rfl, fun waits => by simp only [if_neg waits]; rfl⟩
  · rw [if_neg (not_not.mpr member), none]
    refine ⟨fun ⟨o, held, own⟩ => ?_, fun absent => ?_⟩
    · have : (orderWithId s (ownId s seq)).isSome = true := by
        rw [Option.isSome_iff_ne_none]
        exact fun h => orderWithId_none.mp h o held own
      simp only [if_pos this]; rfl
    · simp only [orderWithId_none.mpr absent]; rfl

theorem vetoTooLate_iff {s : State} {g : Grid} (hg : s.timer.grid = some g) (target : Epoch) :
    vetoTooLate s target = true ↔ epochDistance g.counter target = 1 ∧
      (5 * epochLength s.profile / 8 < g.phase ∨ 5 * epochLength s.profile / 8 ≤ g.point) := by
  simp only [vetoTooLate, hg, Option.any_some, Bool.and_eq_true, Bool.or_eq_true, beq_iff_eq]
  exact and_congr_right fun _ => or_congr decide_eq_true_iff decide_eq_true_iff

theorem gridState_iff (state : StationState) : gridState state = true ↔ state = .arriving ∨ state = .member := by
  cases state <;> simp [gridState]

/-- An update of the orders with an id, slot by slot. -/
theorem get_updateWhere_id (t : Table (Option Order) 16) (id : OrderId) (f : Order → Order) (slot : Fin 16) :
    (t.updateWhere (fun o => o.id == id) f).get slot = (t.get slot).map fun x => if x.id = id then f x else x := by
  rw [Table.updateWhere, Table.get_map]
  cases t.get slot with
  | none => rfl
  | some x => by_cases same : x.id = id <;> simp [same]

/-- Settles O21. -/
theorem vetoFollowsItsConditions : Obligations.VetoFollowsItsConditions := by
  intro origin seq s taken
  have run : exec (.veto origin seq) s = .next (taking (.veto origin seq) s _) := rfl
  rw [taking_of _ taken] at run
  rw [run]
  refine ⟨fun out => by rw [below_of_le (show 32 ≤ origin.toNat from out)]; rfl, fun n hn => ?_⟩
  rw [below_of_val hn]
  dsimp only
  refine ⟨fun notArriving notMember => ?_, fun state => ?_⟩
  · have outside : gridState s.membership.state = false := by
      rw [← Bool.not_eq_true, gridState_iff]; tauto
    rw [if_pos (by rw [outside]; rfl)]; rfl
  · have inside : gridState s.membership.state = true := (gridState_iff _).mpr state
    rw [if_neg (by simp [inside])]
    refine ⟨fun none => by rw [orderWithId_none.mpr none]; rfl, fun o g found hg => ?_⟩
    rw [found]
    dsimp only
    refine ⟨fun late => by rw [if_pos ((vetoTooLate_iff hg _).mpr late)]; rfl, fun inTime => ?_⟩
    rw [if_neg (mt (vetoTooLate_iff hg _).mp inTime)]
    exact ⟨_, rfl, fun slot => get_updateWhere_id _ _ _ slot⟩

/-! ### Notices and tallies (R161, R162, R168) -/

theorem activeState_iff (state : StationState) :
    activeState state = true ↔ state = .forming ∨ state = .arriving ∨ state = .member := by
  cases state <;> simp [activeState]

theorem tallyOf_setTally (k : TallyKind) (n : Nat) (t : Tallies) : tallyOf k (setTally k n t) = n := by
  cases k <;> rfl

theorem tallyOf_setTally_other {j k : TallyKind} (h : j ≠ k) (n : Nat) (t : Tallies) :
    tallyOf j (setTally k n t) = tallyOf j t := by
  cases k <;> cases j <;> first | rfl | exact absurd rfl h

/-- The state with one more in a tally. -/
def tallied (k : TallyKind) (s : State) : State :=
  { s with monitor := { s.monitor with tallies := setTally k (tallyOf k s.monitor.tallies + 1) s.monitor.tallies } }

/-- Whether a tally counts now (R161). -/
def Tallies.Counts (k : TallyKind) (s : State) : Prop :=
  (s.membership.state = .forming ∨ s.membership.state = .arriving ∨ s.membership.state = .member) ∧
    tallyOf k s.monitor.tallies < 255

theorem counts_iff (k : TallyKind) (s : State) :
    (activeState s.membership.state && decide (tallyOf k s.monitor.tallies < Config.tallyTop)) = true ↔ Tallies.Counts k s := by
  rw [Bool.and_eq_true, activeState_iff, decide_eq_true_eq]; rfl

theorem countTally_stays {k : TallyKind} {s : State} (h : ¬ Tallies.Counts k s) : countTally k s = (s, false) := by
  unfold countTally
  dsimp only
  rw [if_neg (mt (counts_iff k s).mp h)]

theorem countTally_below {k : TallyKind} {s : State} (h : Tallies.Counts k s)
    (below : tallyOf k s.monitor.tallies + 1 ≠ s.profile.threshold) : countTally k s = (tallied k s, false) := by
  unfold countTally
  dsimp only
  rw [if_pos ((counts_iff k s).mpr h), if_neg below]; rfl

theorem countTally_limit {k : TallyKind} {s : State} (h : Tallies.Counts k s)
    (limit : tallyOf k s.monitor.tallies + 1 = s.profile.threshold) :
    countTally k s = (post (.tallyLimit k s.profile.threshold) (tallied k s), s.profile.withdrawMask.getLsbD (tallyCode k - 1)) := by
  unfold countTally
  dsimp only
  rw [if_pos ((counts_iff k s).mpr h), if_pos limit]; rfl

theorem post_disabled {r : Report} {s : State} (h : s.profile.noticeMask.getLsbD (reportCode r - 1) = false) : post r s = s := by
  unfold post; rw [postNotice_disabled _ h]

theorem post_room {r : Report} {s : State} (h : s.profile.noticeMask.getLsbD (reportCode r - 1) = true)
    (room : s.monitor.notices.length < 16) : post r s = { s with monitor := { s.monitor with
      notices := s.monitor.notices ++ [⟨r, s.timer.grid.map fun g => g.counter⟩] } } := by
  unfold post; rw [postNotice_room h room]

theorem post_full {r : Report} {s : State} (h : s.profile.noticeMask.getLsbD (reportCode r - 1) = true)
    (full : 16 ≤ s.monitor.notices.length) :
    post r s = { s with monitor := { s.monitor with overflow := min (s.monitor.overflow + 1) 255 } } := by
  unfold post; rw [postNotice_full h full]

/-- Settles O28. -/
theorem noticesAndTalliesAreRecorded : Obligations.NoticesAndTalliesAreRecorded := fun _ k _ =>
  ⟨post_disabled, post_room, post_full, countTally_stays, countTally_below, countTally_limit, tallyOf_setTally k _ _,
    fun _ other => tallyOf_setTally_other other _ _⟩

/-! ### The return to LISTEN with ALIGN_FAILED (R111) -/

theorem alignFailed_eq {s : State} (h : s.membership.state = .aligning ∨ s.membership.state = .arriving) (why : AlignFailure) :
    alignFailed why s = enterListen false (purgeWhere (fun _ => true) (carrierReset
      { post (.alignFailed why) s with
        orders := ordersCleared s.orders, timer := timerCleared s.timer })) := by
  unfold alignFailed; rw [if_pos h]; rfl

/-- Settles O32. -/
theorem alignFailedReturnsToListen : Obligations.AlignFailedReturnsToListen := by
  intro why s state
  rw [alignFailed_eq state]
  refine ⟨rfl, rfl, rfl, rfl, rfl, rfl, fun _ => Table.get_fill .., rfl, rfl, rfl, rfl, liveOrders_cleared _ s.orders rfl,
    openBallots_cleared _ s.orders rfl, rfl, rfl, ?_, rfl, rfl, rfl, rfl⟩
  show s.queue.entries.filter (fun e => !(true && !inTransmission s e)) = _
  simp

end Sys2Proof.Machine
end
section
/-! Power-on reset, one reference clock, the samples of the table, and the bytes of READ_STATUS. -/

namespace Sys2Proof.Machine

/-! ### Power-on reset (R180) -/

/-- A request that is not taken changes nothing. -/
theorem exec_of_notTaken {c : Instr} {s : State} (request : isRequest c = true) (h : takesRequest c s = false) :
    exec c s = .next s := by
  have stays : ∀ t, taking c s t = s := fun t => by rw [taking, h]; rfl
  cases c
  all_goals cases request
  all_goals exact congrArg Host.Outcome.next (stays _)

/-- While RSTN is low, nothing but a reset or a clock changes anything. -/
theorem exec_inReset_low (c : Instr) (port : LocalPort) (s : State) (reset : c ≠ .powerOnReset) (clock : c ≠ .carrierSample) :
    exec c (inReset .low port s) = .next (inReset .low port s) := by
  cases c
  case powerOnReset => exact absurd rfl reset
  case carrierSample => exact absurd rfl clock
  all_goals rfl

theorem ldoPin_closed (s : State) (h : s.localPort.sent = 0) : ldoPin s = none := by simp [ldoPin, h]

theorem exec_carrierSample_low {s : State} (low : (pinsNow s).rstn = .low) : exec .carrierSample s =
    .next (inReset .low (portInReset (pinsNow s).lsel (pinsNow s).lclk) { s with inputs := s.inputs.tail }) := by
  show Host.Outcome.next _ = _
  rw [low]

/-- Settles O13. -/
theorem powerOnResetSetsEveryItem : Obligations.PowerOnResetSetsEveryItem := by
  intro s
  refine ⟨⟨_, rfl, rfl, rfl, rfl, fun _ => Table.get_fill .., by simp [formationSize, inReset, State.reset], rfl, rfl, rfl, rfl, rfl,
    Table.held_fill, Table.held_fill, rfl, rfl, rfl, rfl, rfl, rfl, rfl, fun _ => Table.get_fill .., rfl, rfl, rfl, rfl, rfl,
    fun _ h => ?_, rfl, rfl, rfl, rfl, rfl, rfl, ldoPin_closed _ rfl, rfl, ?_, rfl, rfl, rfl, ?_, ?_⟩, fun low => ?_⟩
  · simp [inReset, State.reset] at h
  · show (if (if s.localPort.transaction = .closed then Level.high else .low) = .low then Transaction.void else .closed) = _
    split <;> rfl
  · intro low c reset clock
    have low : (pinsNow s).rstn = .low := low
    rw [low]
    exact exec_inReset_low c _ s reset clock
  · intro low
    have low : (pinsNow s).rstn = .low := low
    rw [low]
    exact ⟨_, exec_carrierSample_low (s := inReset .low _ s) low⟩
  · exact ⟨_, exec_carrierSample_low low, rfl, rfl⟩

/-! ### One reference clock (R181) -/

theorem exec_carrierSample_high {s : State} (high : (pinsNow s).rstn = .high) (stays : s.bus.withdrawAsked = false) :
    exec .carrierSample s = .next (tick s) := by
  show Host.Outcome.next _ = _
  rw [high]
  simp [withdrawIf, stays]

theorem outputState_eq_live_iff (s : State) :
    outputState s = .live ↔ s.membership.state = .member ∧ s.carrier.synced = true := by
  unfold outputState outputOf
  split_ifs with member synced
  · simp [member, synced]
  · simp [synced]
  · simp [member]

theorem clockMembership_eq (p : Profile) (m : Membership) : clockMembership p m = (match m.state with
    | .listen => { m with listenTimer := min (m.listenTimer + 1) (listenSpan p) }
    | .forming => { m with
        repeatTimer := min (m.repeatTimer + 1) (listenSpan p)
        slowTimer := if m.slowPosted then m.slowTimer else min (m.slowTimer + 1) (8 * listenSpan p) }
    | .aligning => { m with alignTimer := min (m.alignTimer + 1) (listenSpan p) }
    | _ => m) := by
  unfold clockMembership
  cases m.state <;> rfl

theorem busAtEdge_slotRead (s : State) : (busAtEdge s).slotRead = false := by
  unfold busAtEdge; dsimp only; split <;> rfl

/-- Settles O33. -/
theorem referenceClockAdvancesTheCarrier : Obligations.ReferenceClockAdvancesTheCarrier := by
  intro s high stays
  refine ⟨tick s, exec_carrierSample_high high stays, rfl, rfl, fun k hk => ?_, ?_, rfl, rfl, rfl, rfl, rfl, rfl, ?_,
    fun idle => clockBus_idle s idle, fun runs inside => ?_, fun runs edge => ?_, rfl, rfl, rfl, rfl, rfl, rfl, rfl, rfl, rfl,
    rfl⟩
  · show ((_ :: s.carrier.delayLine).take 264)[k + 1]? = _
    rw [List.getElem?_take_of_lt (by omega), List.getElem?_cons_succ]
  · show (if outputState s = .live then _ else _) = _
    simp only [outputState_eq_live_iff]
    congr 1
  · exact clockMembership_eq s.profile s.membership
  · refine clockBus_inside s ?_ runs
    simp [slotEnds, inside]
  · have ends : slotEnds s = true := by simp [slotEnds, runs, edge]
    show (clockBus s).slotTimer = 0 ∧ (clockBus s).slotRead = false ∧ (clockBus s).sending = _ ∧
      (clockBus s).attempts = _ ∧ (clockBus s).attemptsFor = _
    rw [clockBus_edge s ends]
    exact ⟨busAtEdge_slotTimer s, busAtEdge_slotRead s, busAtEdge_sending s, busAtEdge_attempts s, busAtEdge_attemptsFor s⟩

/-! ### The samples of the table (R74) -/

/-- Half a turn adds half of the phase indices. -/
theorem phaseIndex_halfTurn (a : BitVec 32) :
    phaseIndex (a + BitVec.ofNat 32 (2 ^ 31)) = (phaseIndex a + 8192) % 16384 := by
  unfold phaseIndex
  rw [BitVec.toNat_add, BitVec.toNat_ofNat]
  omega

theorem phaseIndex_lt (a : BitVec 32) : phaseIndex a < 16384 := by
  unfold phaseIndex
  have := a.isLt
  omega

/-- The sample of a phase index, which is all that a sample reads of the accumulator. -/
def sampleAt (index : Nat) (amplitude : BitVec 12) : Int :=
  match index / 4096 with
  | 0 => (scaledMagnitude amplitude.toNat (quarterSine (index % 4096)) : Int)
  | 1 => (scaledMagnitude amplitude.toNat (quarterSine (4096 - index % 4096)) : Int)
  | 2 => -(scaledMagnitude amplitude.toNat (quarterSine (index % 4096)) : Int)
  | _ => -(scaledMagnitude amplitude.toNat (quarterSine (4096 - index % 4096)) : Int)

theorem sampleOf_eq (a : BitVec 32) (amplitude : BitVec 12) : sampleOf a amplitude = sampleAt (phaseIndex a) amplitude := rfl

theorem sampleAt_halfTurn (index : Nat) (h : index < 16384) (amplitude : BitVec 12) :
    sampleAt ((index + 8192) % 16384) amplitude = - sampleAt index amplitude := by
  have same : (index + 8192) % 16384 % 4096 = index % 4096 := by omega
  unfold sampleAt
  rw [same]
  have quarter : index / 4096 < 4 := by omega
  interval_cases hq : index / 4096
  · rw [show (index + 8192) % 16384 / 4096 = 2 by omega]; simp
  · rw [show (index + 8192) % 16384 / 4096 = 3 by omega]; simp
  · rw [show (index + 8192) % 16384 / 4096 = 0 by omega]; simp
  · rw [show (index + 8192) % 16384 / 4096 = 1 by omega]; simp

/-- Settles O34. -/
theorem sampleTableValuesAndSymmetries : Obligations.SampleTableValuesAndSymmetries := by
  refine ⟨by decide +kernel, by decide +kernel, sampleOf_zero_amplitude, fun a amplitude => ?_, fun a low amplitude same => ?_⟩
  · rw [sampleOf_eq, sampleOf_eq, phaseIndex_halfTurn, sampleAt_halfTurn _ (phaseIndex_lt a)]
  · rw [sampleOf_eq, sampleOf_eq, phaseIndex, same, phaseIndex]

/-! ### READ_STATUS (R175) -/

theorem presentByte_eq (s : State) : presentByte s = BitVec.ofNat 8 ((if s.timer.grid.isSome then 1 else 0) +
    (if s.timer.lastReading.isSome then 2 else 0) + (if s.membership.blindHorizon.isSome then 4 else 0)) := by
  simp only [BitVec.ofNat_add, ofNat_ite_zero]; rfl

theorem claimsByte_eq (c : Claims) : claimsByte c = BitVec.ofNat 8 ((if c.formation then 1 else 0) +
    (if c.mark then 2 else 0) + (if c.veto then 4 else 0)) := by
  simp only [BitVec.ofNat_add, ofNat_ite_zero]; rfl

theorem entryByte_eq (i : Option ToneIndex) : entryByte i = (i.map fun i => BitVec.ofNat 8 i.val).getD 0xFF := by
  cases i <;> rfl

/-- The 27 bytes of READ_STATUS, one by one. -/
theorem statusBytes_eq (s : State) : statusBytes s =
    [stateCode s.membership.state, BitVec.ofNat 8 s.profile.station.val, BitVec.ofNat 8 s.profile.group.val,
     BitVec.ofNat 8 ((digestOf s.profile).toNat / 256), BitVec.ofNat 8 (digestOf s.profile).toNat, presentByte s,
     BitVec.ofNat 8 ((s.timer.grid.map fun g => g.counter.toNat).getD 0 / 256),
     BitVec.ofNat 8 ((s.timer.grid.map fun g => g.counter.toNat).getD 0),
     BitVec.ofNat 8 ((s.timer.grid.map fun g => g.phase).getD 0 / 256),
     BitVec.ofNat 8 ((s.timer.grid.map fun g => g.phase).getD 0), claimsByte s.timer.claims,
     BitVec.ofNat 8 ((s.timer.lastReading.map fun r => r.mark.toNat).getD 0 / 256),
     BitVec.ofNat 8 ((s.timer.lastReading.map fun r => r.mark.toNat).getD 0),
     BitVec.ofNat 8 ((s.timer.lastReading.map fun r => r.lead).getD 0 / 256),
     BitVec.ofNat 8 ((s.timer.lastReading.map fun r => r.lead).getD 0),
     BitVec.ofNat 8 ((s.timer.lastReading.map fun r => r.lag).getD 0 / 256),
     BitVec.ofNat 8 ((s.timer.lastReading.map fun r => r.lag).getD 0),
     BitVec.ofNat 8 ((s.membership.blindHorizon.map fun h => h.toNat).getD 0 / 256),
     BitVec.ofNat 8 ((s.membership.blindHorizon.map fun h => h.toNat).getD 0),
     outputCode (outputState s), flagByte s.carrier.synced, entryByte s.carrier.current,
     BitVec.ofNat 8 s.membership.withdrawals, BitVec.ofNat 8 s.queue.entries.length,
     flagByte (s.queue.entries.any (inTransmission s)), BitVec.ofNat 8 s.monitor.notices.length,
     BitVec.ofNat 8 (if s.membership.state = .forming then formationSize s.membership.formation else 0)] := by
  simp only [statusBytes, portBytes_two]; rfl

/-- Settles O22. -/
theorem readStatusReportsTheStation : Obligations.ReadStatusReportsTheStation := by
  intro s taken
  have run : exec .readStatus s = .next (taking .readStatus s _) := rfl
  rw [taking_of _ taken] at run
  refine ⟨statusBytes s, run, ?_, ?_, ?_, ?_, fun g hg => ?_, fun hg => ?_, ?_, fun r hr => ?_, fun hr => ?_, fun hh => ?_,
    fun h hh => ?_, ?_⟩
  all_goals rw [statusBytes_eq]
  · rfl
  · rfl
  · rfl
  · rw [presentByte_eq]; rfl
  · rw [hg]; rfl
  · rw [hg]; rfl
  · rw [claimsByte_eq]; rfl
  · rw [hr]; rfl
  · rw [hr]; rfl
  · rw [hh]; rfl
  · rw [hh]; rfl
  · rw [entryByte_eq, ofNat_ite_zero]; rfl

end Sys2Proof.Machine
end
section
/-! The transactions of the local port: the bits of a write transaction, what is taken of it, and the level of LDO. -/

namespace Sys2Proof.Machine

/-! ### The bits of a transaction (R172) -/

/-- The pins over the four clocks of a bit: LCLK low for two of them and high for two, with LSEL low. -/
def bitPins (data : Level) : List Pins :=
  [⟨.high, .low, .low, data⟩, ⟨.high, .low, .low, data⟩, ⟨.high, .low, .high, data⟩, ⟨.high, .low, .high, data⟩]

/-- The level of LDI for a bit. -/
def bitLevel (b : Bool) : Level := if b then .high else .low

/-- The bits of a byte, most significant bit first. -/
def byteBits (b : Byte) : List Bool := (List.range 8).map b.getMsbD

/-- The local port after a row of clocks. -/
def clockPins (l : List Pins) (p : LocalPort) : LocalPort := l.foldl (fun q pins => clockPort pins q) p

theorem clockPins_append (a b : List Pins) (p : LocalPort) : clockPins (a ++ b) p = clockPins b (clockPins a p) :=
  List.foldl_append

/-- The transaction is open, and the bits of a running one are as given. -/
def OpenWith (t : Transaction) (bits : List Bool) (p : LocalPort) : Prop :=
  p.transaction = t ∧ t ≠ .closed ∧ (t = .running → p.shifted = bits)

theorem openWith_clockBit {t : Transaction} {bits : List Bool} {p : LocalPort} (pins : Pins) (h : OpenWith t bits p) :
    OpenWith t (if p.lclk = .low ∧ pins.lclk = .high then bits ++ [pins.ldi == .high] else bits) (clockBit pins p) := by
  obtain ⟨rfl, isOpen, shifted⟩ := h
  unfold clockBit
  cases before : p.lclk <;> cases now : pins.lclk
  · exact ⟨rfl, isOpen, by simpa using shifted⟩
  · exact ⟨rfl, isOpen, fun running => by simp [shifted running]⟩
  · refine ⟨?_, isOpen, fun running => ?_⟩
    · dsimp only; split <;> rfl
    · dsimp only; split <;> simpa using shifted running
  · exact ⟨rfl, isOpen, by simpa using shifted⟩

/-- A clock with LSEL low: a rise of LCLK shifts in LDI, and the count of the clocks with LSEL high is 0. -/
theorem openWith_clockPort_low {t : Transaction} {bits : List Bool} {p : LocalPort} (pins : Pins) (low : pins.lsel = .low)
    (h : OpenWith t bits p) :
    OpenWith t (if p.lclk = .low ∧ pins.lclk = .high then bits ++ [pins.ldi == .high] else bits) (clockPort pins p) ∧
      (clockPort pins p).high = 0 ∧ (clockPort pins p).lclk = pins.lclk := by
  obtain ⟨state, isOpen, shifted⟩ := h
  cases t with
  | closed => exact absurd rfl isOpen
  | running =>
    have start : OpenWith .running bits { p with arrived := none, high := 0 } := ⟨state, isOpen, shifted⟩
    obtain ⟨running, -, now⟩ := openWith_clockBit pins start
    have port : clockPort pins p = { clockBit pins { p with arrived := none, high := 0 } with lclk := pins.lclk } := by
      simp [clockPort, clockTransaction, state, low]
    rw [port]
    refine ⟨⟨running, isOpen, now⟩, ?_, rfl⟩
    dsimp only [clockBit]
    split
    · rfl
    · split <;> rfl
    · rfl
  | void =>
    have port : clockPort pins p = { p with arrived := none, high := 0, lclk := pins.lclk } := by
      simp [clockPort, clockTransaction, state, low]
    rw [port]
    exact ⟨⟨state, isOpen, fun running => by cases running⟩, rfl, rfl⟩

theorem openWith_bitPins {t : Transaction} {bits : List Bool} {p : LocalPort} (b : Bool) (h : OpenWith t bits p) :
    OpenWith t (bits ++ [b]) (clockPins (bitPins (bitLevel b)) p) ∧ (clockPins (bitPins (bitLevel b)) p).high = 0 := by
  obtain ⟨fall, -, low⟩ := openWith_clockPort_low ⟨.high, .low, .low, bitLevel b⟩ rfl h
  obtain ⟨wait, -, low'⟩ := openWith_clockPort_low ⟨.high, .low, .low, bitLevel b⟩ rfl fall
  obtain ⟨rise, -, high⟩ := openWith_clockPort_low ⟨.high, .low, .high, bitLevel b⟩ rfl wait
  obtain ⟨hold, zero, -⟩ := openWith_clockPort_low ⟨.high, .low, .high, bitLevel b⟩ rfl rise
  have level : (bitLevel b == Level.high) = b := by cases b <;> rfl
  refine ⟨?_, zero⟩
  simpa [low', high, level, clockPins, bitPins] using hold

/-- A row of bits is shifted in, bit by bit. -/
theorem openWith_bits {t : Transaction} (row : List Bool) {bits : List Bool} {p : LocalPort} (h : OpenWith t bits p) :
    OpenWith t (bits ++ row) (clockPins (row.flatMap fun b => bitPins (bitLevel b)) p) ∧
      ((p.high = 0 ∨ row ≠ []) → (clockPins (row.flatMap fun b => bitPins (bitLevel b)) p).high = 0) := by
  induction row generalizing bits p with
  | nil => exact ⟨by simpa [clockPins] using h, fun zero => by simpa [clockPins] using zero⟩
  | cons b row ih =>
    obtain ⟨one, zero⟩ := openWith_bitPins b h
    obtain ⟨all, zeroAll⟩ := ih one
    rw [List.flatMap_cons, clockPins_append]
    exact ⟨by simpa using all, fun _ => zeroAll (.inl zero)⟩

theorem shiftedBytes_byteBits (b : Byte) (row : List Bool) : shiftedBytes (byteBits b ++ row) = b :: shiftedBytes row := by
  have spelled : ∀ b : Byte, 128 * bitByte (b.getMsbD 0) + 64 * bitByte (b.getMsbD 1) + 32 * bitByte (b.getMsbD 2) +
      16 * bitByte (b.getMsbD 3) + 8 * bitByte (b.getMsbD 4) + 4 * bitByte (b.getMsbD 5) + 2 * bitByte (b.getMsbD 6) +
      bitByte (b.getMsbD 7) = b := by decide +kernel
  exact congrArg (· :: shiftedBytes row) (spelled b)

/-- The bytes of a transaction are the bytes that were sent. -/
theorem shiftedBytes_bytes (bytes : List Byte) : shiftedBytes (bytes.flatMap byteBits) = bytes := by
  induction bytes with
  | nil => rfl
  | cons b bytes ih => rw [List.flatMap_cons, shiftedBytes_byteBits, ih]

/-- The pins over the clocks of a row of bytes. -/
def bytePins (bytes : List Byte) : List Pins := (bytes.flatMap byteBits).flatMap fun b => bitPins (bitLevel b)

theorem bytePins_eq (bytes : List Byte) : bytePins bytes = bytes.flatMap fun b => (List.range 8).flatMap fun k =>
    bitPins (bitLevel (b.getMsbD k)) := by
  rw [bytePins, List.flatMap_assoc]
  simp only [byteBits, List.flatMap_map]

/-- A single clock with LSEL high is not seen. -/
theorem openWith_gap {t : Transaction} {bits : List Bool} {p : LocalPort} (gap : List Level) (short : gap.length ≤ 1)
    (h : OpenWith t bits p) (zero : p.high = 0) :
    OpenWith t bits (clockPins (gap.map fun l => (⟨.high, .high, l, .low⟩ : Pins)) p) ∧
      (gap = [] → (clockPins (gap.map fun l => (⟨.high, .high, l, .low⟩ : Pins)) p).high = 0) := by
  obtain ⟨state, isOpen, shifted⟩ := h
  match gap, short with
  | [], _ => exact ⟨⟨state, isOpen, shifted⟩, fun _ => zero⟩
  | [l], _ =>
    refine ⟨?_, fun h => by cases h⟩
    have port : clockPins ([l].map fun l => (⟨.high, .high, l, .low⟩ : Pins)) p = { p with arrived := none, high := 1, lclk := l } := by
      cases t with
      | closed => exact absurd rfl isOpen
      | running => simp [clockPins, clockPort, clockTransaction, state, zero]
      | void => simp [clockPins, clockPort, clockTransaction, state, zero]
    rw [port]
    exact ⟨state, isOpen, shifted⟩

/-- The second clock with LSEL high ends the transaction. -/
theorem clockPins_end {t : Transaction} {bits : List Bool} {p : LocalPort} (h : OpenWith t bits p) (zero : p.high = 0) :
    clockPins [⟨.high, .high, .low, .low⟩, ⟨.high, .high, .low, .low⟩] p =
      if t = .running then { LocalPort.closed with arrived := transactionCommand (shiftedBytes bits) } else LocalPort.closed := by
  obtain ⟨state, isOpen, shifted⟩ := h
  cases t with
  | closed => exact absurd rfl isOpen
  | running => simp [clockPins, clockPort, clockTransaction, state, zero, shifted rfl, LocalPort.closed]
  | void => simp [clockPins, clockPort, clockTransaction, state, zero, LocalPort.closed]

/-- A whole transaction, with at most one clock of LSEL high inside it. -/
theorem clockPins_transaction {t : Transaction} (first rest : List Byte) (gap : List Level) (short : gap.length ≤ 1)
    (inside : gap = [] ∨ rest ≠ []) {p : LocalPort}
    (h : OpenWith t [] (clockPort ⟨.high, .low, .low, .low⟩ p)) (zero : (clockPort ⟨.high, .low, .low, .low⟩ p).high = 0) :
    clockPins ([⟨.high, .low, .low, .low⟩] ++ bytePins first ++ gap.map (fun l => ⟨.high, .high, l, .low⟩) ++ bytePins rest ++
        [⟨.high, .high, .low, .low⟩, ⟨.high, .high, .low, .low⟩]) p =
      if t = .running then { LocalPort.closed with arrived := transactionCommand (first ++ rest) } else LocalPort.closed := by
  obtain ⟨afterFirst, zeroFirst⟩ := openWith_bits (first.flatMap byteBits) h
  obtain ⟨afterGap, zeroGap⟩ := openWith_gap gap short afterFirst (zeroFirst (.inl zero))
  obtain ⟨afterRest, zeroRest⟩ := openWith_bits (rest.flatMap byteBits) afterGap
  have zeroEnd := zeroRest (inside.imp zeroGap fun bytes none => bytes (by
    cases rest with
    | nil => rfl
    | cons b rest => simp [byteBits] at none))
  rw [clockPins_append, clockPins_append, clockPins_append, clockPins_append]
  refine (clockPins_end afterRest zeroEnd).trans ?_
  rw [List.nil_append, ← List.flatMap_append, shiftedBytes_bytes]

/-! ### LDO (R173) -/

theorem ldoPin_ne_none_iff (s : State) : ldoPin s ≠ none ↔ s.resetPin = .high ∧ s.localPort.transaction = .running ∧
    s.localPort.high = 0 ∧ (shiftedBytes s.localPort.shifted).head? = some 0 ∧ s.localPort.sent ≠ 0 := by
  simp [ldoPin, isReadTransaction, Nat.pos_iff_ne_zero]

/-- The bytes that a read transaction puts out before its zeros. -/
def readBytes (s : State) : List Byte :=
  BitVec.ofNat 8 (3 + s.response.fields.length) :: s.response.code :: statusCode s.response.status ::
    (s.response.reason.map refusalCode).getD 0 :: s.response.fields

theorem readTransaction_getD (s : State) (k : Nat) : (readTransaction s (k + 1)).getD k 0 = (readBytes s)[k]?.getD 0 := by
  have bytes : BitVec.ofNat 8 (responseBytes s.response).length :: responseBytes s.response = readBytes s := by
    have length : (responseBytes s.response).length = 3 + s.response.fields.length := Nat.add_comm _ 3
    rw [readBytes, length]; rfl
  unfold readTransaction
  rw [bytes, List.getD_eq_getElem?_getD, List.getElem?_take_of_lt (Nat.lt_succ_self k)]
  rcases Nat.lt_or_ge k (readBytes s).length with inside | past
  · rw [List.getElem?_append_left inside]
  · rw [List.getElem?_append_right past, List.getElem?_eq_none past, List.getElem?_replicate]
    split <;> rfl

theorem readBit_eq (s : State) (k : Nat) {i : Nat} (hi : i < 8) :
    readBit s (8 * k + i) = ((readBytes s)[k]?.getD 0).getMsbD i := by
  unfold readBit
  rw [show (8 * k + i) / 8 = k by omega, show (8 * k + i) % 8 = i by omega, readTransaction_getD]

/-- Settles O27. -/
theorem badRequestChangesOnlyTheResponse : Obligations.BadRequestChangesOnlyTheResponse := by
  intro code s
  refine ⟨fun taken named => ?_, fun zero => ?_, fun c => ⟨?_, fun request => exec_of_notTaken request⟩,
    fun p first rest gap short inside low => ⟨fun closed => ?_, fun void => ?_⟩, ldoPin_ne_none_iff s, fun k i driven hi sent => ?_⟩
  · have run : exec (.badRequest code) s = .next (taking (.badRequest code) s _) := rfl
    rw [taking_of _ taken, if_neg named] at run
    exact run
  · have run : exec (.badRequest code) s = .next (taking (.badRequest code) s _) := rfl
    rw [if_pos zero, taking, ite_self] at run
    exact run
  · rw [takesRequest_iff]
    cases s.localPort.arrived <;> simp
  · have opened : clockPort ⟨.high, .low, .low, .low⟩ p = { LocalPort.closed with transaction := .running } := by
      simp [clockPort, clockTransaction, closed, LocalPort.closed]
    have all := clockPins_transaction (t := .running) first rest gap short inside (p := p)
      (by rw [opened]; exact ⟨rfl, by decide, fun _ => rfl⟩) (by rw [opened]; rfl)
    rw [if_pos rfl, bytePins_eq, bytePins_eq] at all
    exact all
  · have held : clockPort ⟨.high, .low, .low, .low⟩ p = { p with arrived := none, high := 0, lclk := .low } := by
      simp [clockPort, clockTransaction, void]
    have all := clockPins_transaction (t := .void) first rest gap short inside (p := p)
      (by rw [held]; exact ⟨void, by decide, fun h => by cases h⟩) (by rw [held])
    rw [if_neg (by decide), bytePins_eq, bytePins_eq] at all
    exact all
  · obtain ⟨pin, running, low, read, counted⟩ := (ldoPin_ne_none_iff s).mp driven
    have level : ldoPin s = some (if readBit s (s.localPort.sent - 1) then .high else .low) := by
      unfold ldoPin
      exact if_pos ⟨pin, running, low, by simpa [isReadTransaction] using read, Nat.pos_of_ne_zero counted⟩
    rw [level, sent, Nat.add_sub_cancel, readBit_eq s k hi]
    rfl

end Sys2Proof.Machine
end
section
/-! Reading back the slots of a driven frame: what a field of bits spells, the codes of the fields, and the check value. -/

namespace Sys2Proof.Machine

/-! ### Fields of bits -/

theorem bitsOf_length (width n : Nat) : (bitsOf width n).length = width := by simp [bitsOf]

theorem bitsOf_succ (width n : Nat) : bitsOf (width + 1) n = n.testBit width :: bitsOf width n := by
  simp [bitsOf, List.range_succ]

theorem natOf_cons (b : Bool) (bits : List Bool) : natOf (b :: bits) = 2 ^ bits.length * b.toNat + natOf bits := by
  have shifted : ∀ (l : List Bool) (acc : Nat),
      l.foldl (fun acc b => 2 * acc + b.toNat) acc = 2 ^ l.length * acc + l.foldl (fun acc b => 2 * acc + b.toNat) 0 := by
    intro l
    induction l with
    | nil => simp
    | cons b l ih =>
      intro acc
      rw [List.foldl_cons, List.foldl_cons, ih, ih (2 * 0 + b.toNat), List.length_cons, pow_succ]
      ring
  rw [natOf, List.foldl_cons, shifted]; simp [natOf]

/-- A field of bits spells its number, as far as its width reaches. -/
theorem natOf_bitsOf (width n : Nat) : natOf (bitsOf width n) = n % 2 ^ width := by
  induction width with
  | zero => rw [pow_zero, Nat.mod_one]; rfl
  | succ width ih => rw [bitsOf_succ, natOf_cons, bitsOf_length, ih, Nat.mod_pow_succ, Nat.toNat_testBit, Nat.add_comm]

/-- The number that a field of bits spells inside a row of slots. -/
theorem slotField_at {slots before after : List Bool} {first width n : Nat} (h : slots = before ++ bitsOf width n ++ after)
    (place : before.length = first) (fits : n < 2 ^ width) : slotField slots first width = n := by
  unfold slotField
  rw [h, List.append_assoc, ← place, List.drop_left, List.take_append_of_le_length (by rw [bitsOf_length]),
    List.take_of_length_le (by rw [bitsOf_length]), natOf_bitsOf, Nat.mod_eq_of_lt fits]

theorem flatMap_bitsOf_length (bytes : List Nat) : (bytes.flatMap (bitsOf 8)).length = 8 * bytes.length :=
  length_flatMap_of_length (bitsOf_length 8) bytes

/-- The bytes that a row of slots spells from a place on. -/
theorem slotFields_at (bytes : List Nat) {slots before after : List Bool} {first : Nat}
    (h : slots = before ++ bytes.flatMap (bitsOf 8) ++ after) (place : before.length = first)
    (fits : ∀ b ∈ bytes, b < 256) :
    ((List.range bytes.length).map fun i => slotField slots (first + 8 * i) 8) = bytes := by
  induction bytes generalizing before first with
  | nil => rfl
  | cons b bytes ih =>
    have head : slotField slots first 8 = b :=
      slotField_at (after := bytes.flatMap (bitsOf 8) ++ after) (by simp [h]) place (fits b (by simp))
    have tail := ih (before := before ++ bitsOf 8 b) (first := first + 8) (by simp [h])
      (by rw [List.length_append, bitsOf_length, place]) (fun x hx => fits x (by simp [hx]))
    rw [List.length_cons, List.range_succ_eq_map, List.map_cons, List.map_map, Nat.mul_zero, Nat.add_zero, head]
    congr 1
    rw [← tail, tail]
    conv_rhs => rw [← tail]
    refine List.map_congr_left fun i _ => ?_
    show slotField slots (first + 8 * (i + 1)) 8 = _
    rw [show first + 8 * (i + 1) = first + 8 + 8 * i by ring]

/-! ### The codes of the fields (section 8.2) -/

theorem kindOf_kindCode (k : FrameKind) : kindOf (kindCode k) = some k := by cases k <;> rfl

theorem groundOf_groundCode (g : Ground) : groundOf (groundCode g) = some g := by cases g <;> rfl

theorem verdictOf_verdictCode (v : Verdict) : verdictOf (verdictCode v) = some v := by
  cases v with
  | accept => rfl
  | refuse g => cases g <;> rfl

theorem abortReasonOf_abortReasonCode {r : AbortReason} (h : r ≠ .unsent) : abortReasonOf (abortReasonCode r) = some r := by
  cases r with
  | refused g => cases g <;> rfl
  | unsent => exact absurd rfl h
  | _ => rfl

theorem phaseModeOf_phaseModeCode (m : PhaseMode) : phaseModeOf (phaseModeCode m) = some m := by cases m <;> rfl

theorem helloStateOf_helloStateCode (h : HelloState) : helloStateOf (helloStateCode h) = some h := by cases h <;> rfl

theorem causeOf_causeCode (c : Cause) : causeOf (causeCode c) = some c := by cases c <;> rfl

theorem word16_bytes (x : BitVec 16) : word16 (x.toNat / 256) (x.toNat % 256) = x := by
  unfold word16
  rw [Nat.div_add_mod, BitVec.ofNat_toNat, BitVec.setWidth_eq]

theorem below_val {bound : Nat} (i : Fin bound) : below bound i.val = some i := below_of_val rfl

theorem ofNat_toNat_byte (b : BitVec 8) : BitVec.ofNat 8 b.toNat = b := by simp

/-- The payload bytes of a frame that has no format error spell its payload. -/
theorem payloadOf_payloadBytes {p : Payload} (h : p.WellFormed = true) :
    payloadOf (payloadKind p) (payloadBytes p) = some p := by
  cases p with
  | abort seq target reason refuser =>
    have carried : reason ≠ .unsent := by simpa [Payload.WellFormed] using h
    simp [payloadKind, payloadBytes, bytesOf16, payloadOf, abortReasonOf_abortReasonCode carried, below_val, word16_bytes]
  | commit seq target => simp [payloadKind, payloadBytes, bytesOf16, payloadOf, word16_bytes]
  | vote origin seq verdict => simp [payloadKind, payloadBytes, payloadOf, below_val, verdictOf_verdictCode]
  | propose seq target mask tone mode =>
    have named : mask.toNat ≠ 0 := by
      have : mask ≠ 0 := by simpa [Payload.WellFormed] using h
      exact fun zero => this (BitVec.eq_of_toNat_eq zero)
    simp [payloadKind, payloadBytes, bytesOf16, payloadOf, below_val, phaseModeOf_phaseModeCode, word16_bytes, named]
  | epoch mark horizon digest => simp [payloadKind, payloadBytes, bytesOf16, payloadOf, word16_bytes]
  | hello state group digest =>
    simp [payloadKind, payloadBytes, bytesOf16, payloadOf, below_val, helloStateOf_helloStateCode, word16_bytes]
  | leave reason => simp [payloadKind, payloadBytes, payloadOf, causeOf_causeCode]

theorem payloadBytes_length (p : Payload) : (payloadBytes p).length = kindLength (payloadKind p) := by cases p <;> rfl

theorem groundCode_lt (g : Ground) : groundCode g < 256 := by cases g <;> decide

theorem verdictCode_lt (v : Verdict) : verdictCode v < 256 := by
  cases v with
  | accept => decide
  | refuse g => exact groundCode_lt g

theorem abortReasonCode_lt (r : AbortReason) : abortReasonCode r < 256 := by
  cases r with
  | refused g => exact groundCode_lt g
  | _ => decide

theorem helloStateCode_lt (h : HelloState) : helloStateCode h < 256 := by cases h <;> decide

theorem causeCode_lt (c : Cause) : causeCode c < 256 := by cases c <;> decide

theorem phaseModeCode_lt (m : PhaseMode) : phaseModeCode m < 256 := by cases m <;> decide

theorem bytesOf16_lt (x : BitVec 16) : ∀ b ∈ bytesOf16 x, b < 256 := by
  have := x.isLt
  simp only [bytesOf16, List.mem_cons, List.not_mem_nil, or_false]
  rintro b (rfl | rfl) <;> omega

/-- Every payload byte is a byte. -/
theorem payloadBytes_lt (p : Payload) : ∀ b ∈ payloadBytes p, b < 256 := by
  have number : ∀ (bound : Nat) (i : Fin bound), bound ≤ 256 → i.val < 256 := fun _ i h => lt_of_lt_of_le i.isLt h
  have byte : ∀ x : BitVec 8, x.toNat < 256 := fun x => x.isLt
  intro b hb
  cases p with
  | abort seq target reason refuser =>
    simp only [payloadBytes, List.mem_append, List.mem_cons, List.not_mem_nil, or_false] at hb
    rcases hb with (rfl | hb) | rfl | rfl
    · exact byte seq
    · exact bytesOf16_lt _ _ hb
    · exact abortReasonCode_lt _
    · exact number 32 refuser (by decide)
  | commit seq target =>
    simp only [payloadBytes, List.mem_append, List.mem_cons, List.not_mem_nil, or_false] at hb
    rcases hb with rfl | hb
    · exact byte seq
    · exact bytesOf16_lt _ _ hb
  | vote origin seq verdict =>
    simp only [payloadBytes, List.mem_cons, List.not_mem_nil, or_false] at hb
    rcases hb with rfl | rfl | rfl
    · exact number 32 origin (by decide)
    · exact byte seq
    · exact verdictCode_lt _
  | propose seq target mask tone mode =>
    simp only [payloadBytes, List.mem_append, List.mem_cons, List.not_mem_nil, or_false] at hb
    rcases hb with (rfl | hb) | rfl | rfl | rfl
    · exact byte seq
    · exact bytesOf16_lt _ _ hb
    · exact byte mask
    · exact number 64 tone (by decide)
    · exact phaseModeCode_lt _
  | epoch mark horizon digest =>
    simp only [payloadBytes, List.mem_append] at hb
    rcases hb with (hb | hb) | hb <;> exact bytesOf16_lt _ _ hb
  | hello state group digest =>
    simp only [payloadBytes, List.mem_append, List.mem_cons, List.not_mem_nil, or_false] at hb
    rcases hb with (rfl | rfl) | hb
    · exact helloStateCode_lt _
    · exact number 8 group (by decide)
    · exact bytesOf16_lt _ _ hb
  | leave reason =>
    simp only [payloadBytes, List.mem_cons, List.not_mem_nil, or_false] at hb
    subst hb
    exact causeCode_lt _

/-! ### The frame (R136, R138, R139, R145) -/

theorem frameBody_length (station : StationNo) (p : Payload) :
    (frameBody station p).length = 12 + 8 * kindLength (payloadKind p) := by
  simp only [frameBody, List.length_append, bitsOf_length, flatMap_bitsOf_length, payloadBytes_length]

theorem frameSlots_length (station : StationNo) (p : Payload) :
    (frameSlots station p).length = 29 + 8 * kindLength (payloadKind p) := by
  simp only [frameSlots, List.length_append, List.length_cons, frameBody_length, bitsOf_length]
  omega

theorem slotField_kind (station : StationNo) (p : Payload) :
    slotField (frameSlots station p) 1 3 = kindCode (payloadKind p) :=
  slotField_at (before := [false]) (after := _) (by simp only [frameSlots, frameBody, List.append_assoc]; rfl) rfl
    (by cases payloadKind p <;> decide)

theorem slotField_station (station : StationNo) (p : Payload) : slotField (frameSlots station p) 4 5 = station.val :=
  slotField_at (before := false :: bitsOf 3 (kindCode (payloadKind p))) (after := _)
    (by simp only [frameSlots, frameBody, List.append_assoc, List.cons_append]; rfl) (by simp [bitsOf_length]) station.isLt

theorem lengthRead_frameSlots (station : StationNo) (p : Payload) :
    lengthRead (frameSlots station p) = some (kindLength (payloadKind p)) := by
  have field : slotField (frameSlots station p) 9 4 = kindLength (payloadKind p) :=
    slotField_at (before := false :: bitsOf 3 (kindCode (payloadKind p)) ++ bitsOf 5 station.val) (after := _)
      (by simp only [frameSlots, frameBody, List.append_assoc, List.cons_append]; rfl) (by simp [bitsOf_length])
      (by cases payloadKind p <;> decide)
  unfold lengthRead
  rw [if_neg (by rw [frameSlots_length]; omega), field]

theorem slotFields_payload (station : StationNo) (p : Payload) :
    ((List.range (kindLength (payloadKind p))).map fun i => slotField (frameSlots station p) (13 + 8 * i) 8) =
      payloadBytes p := by
  rw [← payloadBytes_length]
  exact slotFields_at _ (before := false :: bitsOf 3 (kindCode (payloadKind p)) ++ bitsOf 5 station.val ++
      bitsOf 4 (kindLength (payloadKind p))) (after := _)
    (by simp only [frameSlots, frameBody, List.append_assoc, List.cons_append]; rfl) (by simp [bitsOf_length])
    (payloadBytes_lt p)

theorem frameRead_frameSlots (station : StationNo) {p : Payload} (h : p.WellFormed = true) :
    frameRead (frameSlots station p) = some (station, p) := by
  simp [frameRead, lengthRead_frameSlots, slotField_kind, kindOf_kindCode, slotField_station, below_val, slotFields_payload,
    payloadOf_payloadBytes h]

theorem checkGood_frameSlots (station : StationNo) (p : Payload) : checkGood (frameSlots station p) = true := by
  have body : ((frameSlots station p).drop 1).take (12 + 8 * kindLength (payloadKind p)) = frameBody station p := by
    show (frameBody station p ++ _).take _ = _
    rw [← frameBody_length station p, List.take_left]
  have field : slotField (frameSlots station p) (13 + 8 * kindLength (payloadKind p)) 16 =
      (checkValue (frameBody station p)).toNat :=
    slotField_at (before := false :: frameBody station p) (after := []) (by simp [frameSlots])
      (by rw [List.length_cons, frameBody_length]; omega) (BitVec.isLt _)
  rw [checkGood, lengthRead_frameSlots, Option.any_some, body, field, beq_self_eq_true]

/-- Settles O12: the fields of the frame are read back one by one, from KIND to CHECK. -/
theorem framesReadBack : Obligations.FramesReadBack := by
  intro station p h
  have read := frameRead_frameSlots station h
  refine ⟨read, ?_, frameSlots_length station p⟩
  rw [ownTest, checkGood_frameSlots, read]; rfl

end Sys2Proof.Machine
end
section
/-! The named points of the epoch phase that act on the Epoch Timer alone, the edges of CH, the formation rise and the ends of
the spans. -/

namespace Sys2Proof.Machine

theorem pointReached_iff (g : Grid) (point : Nat) : pointReached g point = true ↔ g.point < point ∧ g.phase = point := by
  simp [pointReached]

/-! ### The hold line (R36, R43, R44, R49) -/

/-- Settles O43. -/
theorem holdLineEventsAreRecorded : Obligations.HoldLineEventsAreRecorded := by
  intro s
  refine ⟨fun g hg phase point => ?_, fun mark lead released h => ?_, fun h => ?_, fun aligning => ?_, fun grid => ?_, fun h => ?_⟩
  · have reached : pointReached g (vetoReleasePhase s.profile) = true := (pointReached_iff ..).mpr ⟨point, phase⟩
    simp only [exec, execVetoRelease, hg, reached, if_true]
    rfl
  · simp only [exec, execMarkLagRise, h]; rfl
  · simp only [exec, execMarkLagRise]
    split
    case h_1 mark lead released taken =>
      rcases h _ taken with h | h <;> simp at h
    case h_2 => rfl
  · simp only [exec, execChFall, aligning]
  · rcases grid with h | h <;> simp only [exec, execChFall, h]
  · simp only [exec, execChFall]
    split <;> simp_all

/-! ### MARK_RELEASE (R35, R40, R44, R103) -/

/-- The station at a mark release, with its claim released (R35, R44). -/
def markReleased (g : Grid) (s : State) : State :=
  { s with timer := { s.timer with
    grid := some { g with point := releasePhase s.profile }
    claims := { s.timer.claims with mark := false }
    provisional := s.timer.provisional.map fun r => { r with released := some s.clock } } }

theorem exec_markRelease_of_not {s : State}
    (h : ∀ g, s.timer.grid = some g → s.timer.claims.mark = true → pointReached g (releasePhase s.profile) = false) (ch : Level) :
    exec (.markRelease ch) s = .next s := by
  simp only [exec, execMarkRelease]
  split
  case h_1 => rfl
  case h_2 g hg =>
    rw [if_neg]
    rintro ⟨claim, reached⟩
    rw [h g hg claim] at reached
    cases reached

theorem exec_markRelease {s : State} {g : Grid} (hg : s.timer.grid = some g) (claim : s.timer.claims.mark = true)
    (reached : pointReached g (releasePhase s.profile) = true) (ch : Level) :
    exec (.markRelease ch) s = .next (match ch with
      | .high => withdraw .holdFault { markReleased g s with timer := { (markReleased g s).timer with provisional := none } }
      | .low => offerEpoch g.counter (markReleased g s)) := by
  simp only [exec, execMarkRelease, hg, claim, reached, and_self, if_true]
  cases ch <;> rfl

theorem epochOnBus_iff (s : State) :
    epochOnBus s = true ↔ ∃ a, s.bus.sending = some a ∧ payloadKind a.payload = .epoch := by
  simp [epochOnBus, Option.any_eq_true]

theorem offerEpoch_eq (mark : Epoch) (s : State) : offerEpoch mark s =
    if s.membership.state = .member ∧ ∀ a, s.bus.sending = some a → payloadKind a.payload ≠ .epoch then
      offer (.epoch mark mark (digestOf s.profile)) s else s := by
  unfold offerEpoch
  refine if_congr (and_congr_right fun _ => ?_) rfl rfl
  rw [epochOnBus_iff]
  push Not
  rfl

/-- Settles O39. -/
theorem markReleaseReleasesTheClaim : Obligations.MarkReleaseReleasesTheClaim := by
  intro s
  have both : (∀ ch, exec (.markRelease ch) s = .next s) →
      exec (.markRelease .low) s = .next s ∧ exec (.markRelease .high) s = .next s := fun h => ⟨h _, h _⟩
  refine ⟨fun none => both (exec_markRelease_of_not fun g hg claim => ?_), fun g hg claim =>
    ⟨fun missed => both (exec_markRelease_of_not fun x hx _ => ?_), fun phase point => ⟨?_, ?_⟩⟩⟩
  · simp [hg, claim] at none
  · obtain rfl := Option.some.inj (hg.symm.trans hx)
    rw [← Bool.not_eq_true, pointReached_iff, releasePhase]
    omega
  · rw [exec_markRelease hg claim ((pointReached_iff ..).mpr ⟨point, phase⟩)]
    exact congrArg _ (offerEpoch_eq ..)
  · rw [exec_markRelease hg claim ((pointReached_iff ..).mpr ⟨point, phase⟩)]
    rfl

/-! ### VETO_POINT (R36, R44, R53) -/

/-- The station past its veto point (R36, R53). -/
def vetoPointTaken (g : Grid) (s : State) : State :=
  { s with timer := { s.timer with
    grid := some { g with point := vetoPhase s.profile }
    claims := { s.timer.claims with
      veto := s.timer.claims.veto || (orderWithTarget s (g.counter + 1)).any claimsVeto }
    provisional := s.timer.provisional.map fun r => { r with lag := some (r.lag.getD (eighth s.profile)) } } }

theorem exec_vetoPoint {s : State} {g : Grid} (hg : s.timer.grid = some g)
    (reached : pointReached g (vetoPhase s.profile) = true) : exec .vetoPoint s = .next (vetoPointTaken g s) := by
  simp only [exec, execVetoPoint, hg, reached, if_true]
  rfl

theorem claimsVeto_iff (o : Order) : claimsVeto o = true ↔ o.state = .pending ∨ o.vetoRequest = true := by
  simp [claimsVeto]

/-- While the live orders are distinct, the order found for an id is the one that has it. -/
theorem orderWithId_eq {s : State} {o : Order} (hd : ScheduleDistinct s) (ho : o ∈ liveOrders s) :
    orderWithId s o.id = some o := by
  cases h : orderWithId s o.id with
  | none => exact absurd rfl (orderWithId_none.mp h o ho)
  | some x =>
    obtain ⟨hx, same⟩ := orderWithId_some h
    by_contra other
    exact (pairwise_apart (fun _ _ ⟨id, target⟩ => ⟨id.symm, target.symm⟩) hd hx ho fun eq => other (by rw [eq])).1 same

/-- An update that keeps the targets changes the order found for a target in place. -/
theorem orderWithTarget_updateOrder {f : Order → Order} (same : ∀ o, (f o).target = o.target) (id : OrderId) (s : State)
    (t : Epoch) : orderWithTarget (updateOrder id f s) t =
      (orderWithTarget s t).map fun o => if o.id == id then f o else o := by
  rw [orderWithTarget, liveOrders_updateOrder, List.find?_map, orderWithTarget]
  congr 2
  funext o
  simp only [Function.comp_apply]
  split
  · rw [same]
  · rfl

/-- A VETO of a held order at a station with a counter (R65). -/
theorem exec_veto {s : State} {origin seq : Byte} {n : StationNo} {o : Order} (taken : takesRequest (.veto origin seq) s = true)
    (number : n.val = origin.toNat) (inside : gridState s.membership.state = true)
    (held : orderWithId s ⟨n, seq⟩ = some o) : exec (.veto origin seq) s = .next (
      if vetoTooLate s o.target then refuseRequest 0x09 .tooLate s
      else respond 0x09 .ok [] (updateOrder ⟨n, seq⟩ (fun x => { x with vetoRequest := true }) s)) := by
  have run : exec (.veto origin seq) s = .next (taking (.veto origin seq) s _) := rfl
  rw [taking_of _ taken] at run
  rw [run, below_of_val number]
  dsimp only
  rw [if_neg (by simp [inside]), held]

/-- Settles O40. -/
theorem vetoPointClaimsByTheRecord : Obligations.VetoPointClaimsByTheRecord := by
  intro s g hg phase point
  have run : ∀ {u : State}, u.timer = s.timer → u.profile = s.profile → exec .vetoPoint u = .next (vetoPointTaken g u) :=
    fun timer profile => exec_vetoPoint (timer ▸ hg) ((pointReached_iff ..).mpr (by rw [profile]; exact ⟨point, phase⟩))
  refine ⟨⟨_, run rfl rfl, ?_, ?_⟩, fun o origin seq distinct live target number sequence state taken => ?_⟩
  · rw [Bool.decide_or, Bool.decide_eq_true, Bool.decide_eq_true]
    rfl
  · simp [vetoPointTaken, Option.any_eq_true, claimsVeto_iff]
  have inside : gridState s.membership.state = true := (gridState_iff _).mpr state
  have held : orderWithId s ⟨o.id.origin, seq⟩ = some o := sequence ▸ orderWithId_eq distinct live
  have next : epochDistance g.counter o.target = 1 := by simp [epochDistance, target]
  constructor
  · have inTime : vetoTooLate s o.target = false := by
      rw [← Bool.not_eq_true, vetoTooLate_iff hg]
      omega
    have answered := exec_veto taken number inside held
    rw [if_neg (by simp [inTime])] at answered
    refine ⟨_, _, answered, rfl, run rfl rfl, ?_⟩
    have found : orderWithTarget s (g.counter + 1) = some o := target ▸ orderWithTarget_eq distinct live
    have asked : orderWithTarget (respond 0x09 .ok [] (updateOrder ⟨o.id.origin, seq⟩
        (fun x => { x with vetoRequest := true }) s)) (g.counter + 1) = some { o with vetoRequest := true } := by
      refine (orderWithTarget_updateOrder (f := fun x => { x with vetoRequest := true }) (fun _ => rfl) _ s _).trans ?_
      rw [found, Option.map_some, if_pos (by simp [← sequence])]
    refine Bool.or_eq_true_iff.mpr (.inr ?_)
    rw [asked]
    simp [claimsVeto]
  · have late : vetoTooLate (vetoPointTaken g s) o.target = true :=
      (vetoTooLate_iff (g := { g with point := vetoPhase s.profile }) rfl _).mpr ⟨next, .inr le_rfl⟩
    have refused := exec_veto (s := vetoPointTaken g s) taken number inside held
    rw [if_pos late] at refused
    exact ⟨_, run rfl rfl, refused⟩

/-! ### The ends of the spans (R92, R96, R98, R109) -/

/-- Putting a record into a slot adds one to the records held if the slot was free. -/
theorem length_filterMap_set {α : Type} (a : α) (l : List (Option α)) (i : Nat) (h : i < l.length) :
    ((l.set i (some a)).filterMap id).length =
      if l[i].isSome then (l.filterMap id).length else (l.filterMap id).length + 1 := by
  induction l generalizing i with
  | nil => cases h
  | cons o l ih =>
    cases i with
    | zero => cases o <;> simp
    | succ i =>
      have := ih i (Nat.lt_of_succ_lt_succ h)
      cases o with
      | none => simpa using this
      | some b =>
        have one : ∀ r : List (Option α), (List.filterMap id (some b :: r)).length = (r.filterMap id).length + 1 := fun _ => rfl
        rw [List.set_cons_succ, one, one, this]
        simp only [List.getElem_cons_succ]
        split <;> rfl

theorem formationSize_set (f : Table (Option Group) 32) (n : StationNo) (g : Group) :
    formationSize (formationWith n g f) = if (f.get n).isSome then formationSize f else formationSize f + 1 :=
  length_filterMap_set g f.items n.val (by rw [f.sized]; exact n.isLt)

theorem formationSize_empty : formationSize (Table.fill 32 none) = 0 := by
  rw [formationSize, Table.held_fill]; rfl

/-- The formation set of a station alone (R94). -/
def formationAlone (s : State) : Table (Option Group) 32 := formationWith (ownNumber s) s.profile.group (Table.fill 32 none)

/-- A station as it enters FORMING with a formation set, before it queues its HELLO(FORMING) (R94). -/
def formingWith (set : Table (Option Group) 32) (s : State) : State :=
  { s with
    membership := { membershipCleared .forming s.membership with formation := set }
    timer := { s.timer with claims := { s.timer.claims with formation := true } } }

theorem enterForming_alone (s : State) :
    enterForming none s = releaseIfComplete (offer (ownHello .forming s) (formingWith (formationAlone s) s)) := rfl

theorem enterForming_sender {n : StationNo} {s : State} (foreign : n ≠ ownNumber s) (g : Group) : enterForming (some (n, g)) s =
    releaseIfComplete (offer (ownHello .forming s) (formingWith (formationWith n g (formationAlone s)) s)) := by
  unfold enterForming
  dsimp only
  rw [if_neg foreign]
  rfl

/-- The formation claim stands on only while the formation set holds fewer than E stations (R97). -/
theorem releaseIfComplete_eq (s : State) : releaseIfComplete s = { s with timer := { s.timer with claims :=
    { s.timer.claims with formation :=
      s.timer.claims.formation && decide (formationSize s.membership.formation < s.profile.expected) } } } := by
  unfold releaseIfComplete
  split
  case isTrue complete => simp [Nat.not_lt.mpr complete]
  case isFalse short => simp [Nat.not_le.mp short]

/-- Settles O46. -/
theorem spanEndsActInTheirStates : Obligations.SpanEndsActInTheirStates := by
  intro s
  have quiet : ∀ {p : Prop} [Decidable p] {t u : State}, ¬ p → (Host.Outcome.next (if p then t else u) : Host.Outcome State Fault Refusal) = .next u :=
    fun h => by rw [if_neg h]
  refine ⟨fun listen span seen => ?_, fun listen span seen empty => ?_, fun h => ?_, fun aligning span => ?_, fun h => ?_,
    fun forming span => ?_, fun h => ?_, fun forming posted span => ?_, fun h => ?_⟩
  · exact congrArg _ ((if_pos ⟨listen, span⟩).trans (if_pos seen))
  · have alone : exec .listenSpanEnd s = .next (enterForming none s) :=
      congrArg _ ((if_pos ⟨listen, span⟩).trans (if_neg (by simp [seen])))
    rw [enterForming_alone, offer_room _ (formingWith _ s) (fun e he => absurd (empty ▸ he : e ∈ []) List.not_mem_nil)
      (by rw [show (formingWith _ s).queue.entries = [] from empty]; decide), releaseIfComplete_eq] at alone
    refine ⟨_, alone, rfl, fun n => ?_, ?_, rfl, rfl, rfl, ?_, rfl, rfl, rfl, rfl⟩
    · exact (Table.get_set ..).trans (by rw [Table.get_fill]; rfl)
    · show (true && decide (formationSize (formationAlone s) < s.profile.expected)) = _
      rw [formationAlone, formationSize_set, formationSize_empty, Table.get_fill]
      rfl
    · show s.queue.entries ++ _ = _
      rw [empty]
      rfl
  · exact quiet fun ⟨listen, span⟩ => h.elim (· listen) (· span)
  · exact congrArg _ (if_pos ⟨aligning, span⟩)
  · exact quiet fun ⟨aligning, span⟩ => h.elim (· aligning) (· span)
  · exact congrArg _ (if_pos ⟨forming, span⟩)
  · exact quiet fun ⟨forming, span⟩ => h.elim (· forming) (· span)
  · exact congrArg _ (if_pos ⟨forming, posted, span⟩)
  · refine quiet fun ⟨forming, posted, span⟩ => ?_
    rcases h with h | h | h
    · exact h forming
    · rw [posted] at h; cases h
    · exact h span

/-! ### FORMATION_RISE (R48, R79, R101) -/

theorem rosterFromFormation_get (own : StationNo) (f : Table (Option Group) 32) (n : StationNo) :
    (rosterFromFormation own f).get n = match f.get n with
      | some group => if n = own then ⟨.absent, none, 0⟩ else ⟨.member, some group, 0⟩
      | none => ⟨.absent, none, 0⟩ := by
  rw [rosterFromFormation, Table.get_mapWith]
  cases f.get n with
  | none => rfl
  | some g => simp only [Fin.ext_iff]; rfl

/-- The peers held as MEMBER, counted by their numbers. -/
theorem memberCount_eq (r : Table RosterEntry 32) :
    memberCount r = (allStations.filter fun n => (r.get n).presence == .member).length := by
  have items : r.items = allStations.map r.get := by
    refine List.ext_getElem (by simp [r.sized, allStations]) fun i h _ => ?_
    simp [allStations, Table.get_eq]
  rw [memberCount, items, List.filter_map, List.length_map]
  rfl

/-- A MEMBER whose synced flag has just been set is LIVE, and says so (R80). -/
theorem postIfLive_live {before : OutputState} {s : State} (dark : before ≠ .live) (live : outputState s = .live) :
    postIfLive before s = post (.live s.carrier.current) s := if_pos ⟨dark, live⟩

theorem inTransmission_of_purged {p : QueueEntry → Bool} {s : State} {e : QueueEntry} (he : e ∈ (purgeWhere p s).queue.entries) :
    e ∈ s.queue.entries ∧ (p e = true → inTransmission s e = true) := by
  obtain ⟨held, stays⟩ := List.mem_filter.mp he
  exact ⟨held, fun picked => by simpa [picked] using stays⟩

/-- A FORMING station as it becomes a founding MEMBER (R48, R79, R101). -/
def founded (s : State) : State :=
  let risen := dropFormingHello { s with
    timer := { timerCleared s.timer with grid := some ⟨0, 0, 0, false⟩ }
    membership :=
      { membershipCleared .member s.membership with roster := rosterFromFormation (ownNumber s) s.membership.formation } }
  { risen with carrier := takeTone 0 .restart true risen.carrier }

theorem exec_formationRise {s : State} (forming : s.membership.state = .forming) (released : s.timer.claims.formation = false) :
    exec .formationRise s = .next (post (.live (some 0))
      (post (.formed (memberCount (rosterFromFormation (ownNumber s) s.membership.formation) + 1)) (founded s))) := by
  refine (congrArg Host.Outcome.next (if_pos ⟨forming, released⟩)).trans (congrArg _ (postIfLive_live (by decide) ?_))
  simp [outputState, outputOf, dropFormingHello, membershipCleared, takeTone]

/-- Settles O44. -/
theorem formationRiseMakesAMember : Obligations.FormationRiseMakesAMember := by
  intro s
  refine ⟨fun forming released => ⟨_, exec_formationRise forming released, ?_⟩, fun forming stands =>
    ⟨congrArg Host.Outcome.next (if_pos ⟨forming, stands⟩),
      congrArg Host.Outcome.next (if_neg fun ⟨_, h⟩ => by rw [stands] at h; cases h)⟩, fun other =>
    ⟨congrArg Host.Outcome.next (if_neg fun ⟨h, _⟩ => other h), congrArg Host.Outcome.next (if_neg fun ⟨h, _⟩ => other h)⟩⟩
  refine ⟨rfl, rfl, rfl, rfl, fun n => rosterFromFormation_get .., formationSize_empty, rfl, rfl, rfl, rfl, ?_, ?_,
    fun e he => inTransmission_of_purged he, ⟨_, rfl, ?_⟩, rfl, rfl, rfl, rfl⟩
  · show takeTone 0 .restart true s.carrier = _
    simp [takeTone, toneAt]
  · show outputOf .member (takeTone 0 .restart true s.carrier).synced = .live
    simp [outputOf, takeTone]
  · exact congrArg (· + 1) (memberCount_eq _)

end Sys2Proof.Machine
end
section
/-! The accepted frames: which states hand them on, and the Order Engine's part: PROPOSE, VOTE, COMMIT and ABORT. -/

namespace Sys2Proof.Machine

/-! ### What the end of a frame leaves as it is -/

@[simp] theorem ownNumber_frameEnds (s : State) : ownNumber (frameEnds s) = ownNumber s := by simp [ownNumber]
@[simp] theorem liveOrders_frameEnds (s : State) : liveOrders (frameEnds s) = liveOrders s := liveOrders_congr (by simp)
@[simp] theorem openBallots_frameEnds (s : State) : openBallots (frameEnds s) = openBallots s := openBallots_congr (by simp)
@[simp] theorem rosterEntry_frameEnds (s : State) (n : StationNo) : rosterEntry (frameEnds s) n = rosterEntry s n :=
  rosterEntry_congr (by simp) n
@[simp] theorem ballotWithSeq_frameEnds (s : State) (seq : Seq) : ballotWithSeq (frameEnds s) seq = ballotWithSeq s seq := by
  simp [ballotWithSeq]
@[simp] theorem orderWithId_frameEnds (s : State) (id : OrderId) : orderWithId (frameEnds s) id = orderWithId s id := by
  simp [orderWithId]
@[simp] theorem orderWithTarget_frameEnds (s : State) (t : Epoch) : orderWithTarget (frameEnds s) t = orderWithTarget s t := by
  simp [orderWithTarget]
@[simp] theorem digestMatches_frameEnds (s : State) (d : Digest) : digestMatches (frameEnds s) d = digestMatches s d := by
  simp [digestMatches]

/-! ### Acceptance (R86, R87, R145, R147) -/

/-- An accepted frame of another station is delivered, and that is all. -/
theorem exec_foreign {c : Instr} {n : StationNo} {p : Payload} {s : State} (hc : c.acceptedFrame = some (n, p))
    (can : canAccept s n p = true) (foreign : n ≠ ownNumber s) : exec c s = .next (deliveryOf c s (frameEnds s)) := by
  rw [exec_accepted hc, accepted, if_pos can]
  exact congrArg _ (if_neg foreign)

theorem thenRoster_recording {update : State → State} {s : State} (h : recordingState s.membership.state = true) :
    thenRoster update s = update s := if_pos h

theorem thenRoster_passive {update : State → State} {s : State} (h : recordingState s.membership.state = false) :
    thenRoster update s = s := if_neg (by simp [h])

/-- The spoil slot comes after the CHECK (R136). -/
theorem spoilRead_of_unchecked {slots : List Bool} (h : checkRead slots = false) : spoilRead slots = none := by
  unfold checkRead at h
  unfold spoilRead
  cases place : spoilPlace slots with
  | none => rfl
  | some n =>
    rw [place, Option.any_some, decide_eq_false_iff_not, not_le] at h
    exact List.getElem?_eq_none h.le

theorem canAccept_iff (s : State) (n : StationNo) (p : Payload) : canAccept s n p = true ↔
    s.membership.state ≠ .idle ∧ s.bus.sending = none ∧ p.WellFormed = true ∧
      ∀ r, s.bus.reading = some r → r.settled = false ∧ (checkRead r.slots = true →
        ownTest r.slots = true ∧ frameRead r.slots = some (n, p) ∧ spoilRead r.slots ≠ some false) := by
  have passes : readingAgrees s n p = true ↔ ∀ r, s.bus.reading = some r → r.settled = false ∧ (checkRead r.slots = true →
      ownTest r.slots = true ∧ frameRead r.slots = some (n, p) ∧ spoilRead r.slots ≠ some false) := by
    unfold readingAgrees
    cases s.bus.reading with
    | none => simp
    | some r =>
      cases h : checkRead r.slots with
      | false => simp [h, spoilRead_of_unchecked h]
      | true => simp [h, and_assoc]
  simp [canAccept, passes, and_assoc]

theorem recordingState_eq_false {state : StationState}
    (h : state = .leaving ∨ state = .listen ∨ state = .forming) : recordingState state = false := by
  rcases h with rfl | rfl | rfl <;> rfl

/-- LEAVING hands no frame on, LISTEN only EPOCH and HELLO, and FORMING beside them LEAVE (R87). -/
theorem deliveryOf_discarded {c : Instr} {n : StationNo} {p : Payload} (hc : c.acceptedFrame = some (n, p)) (s : State) {t : State}
    (h : t.membership.state = .leaving ∨
      (t.membership.state = .listen ∧ payloadKind p ≠ .epoch ∧ payloadKind p ≠ .hello) ∨
      (t.membership.state = .forming ∧ payloadKind p ∉ [FrameKind.epoch, .hello, .leave])) : deliveryOf c s t = t := by
  have passive : recordingState t.membership.state = false :=
    recordingState_eq_false (h.imp_right (Or.imp And.left And.left))
  cases c <;> cases hc
  case proposeAccepted =>
    have same : ∀ sender seq target mask tone mode, deliverPropose sender seq target mask tone mode t = t := fun _ _ _ _ _ _ => by
      rcases h with h | ⟨h, -⟩ | ⟨h, -⟩ <;> simp [deliverPropose, h]
    rw [deliveryOf]
    dsimp only
    rw [same, thenRoster_passive passive]
  case voteAccepted =>
    have same : ∀ origin seq verdict, deliverVote n origin seq verdict t = t := fun _ _ _ => by
      rcases h with h | ⟨h, -⟩ | ⟨h, -⟩ <;> simp [deliverVote, h]
    rw [deliveryOf]
    dsimp only
    rw [same, thenRoster_passive passive]
  case commitAccepted => simp only [deliveryOf, deliverCommit, passive, Bool.false_eq_true, if_false, thenRoster]
  case abortAccepted => simp only [deliveryOf, deliverAbort, passive, Bool.false_eq_true, if_false, thenRoster]
  case epochAccepted =>
    rcases h with h | ⟨-, h, -⟩ | ⟨-, h⟩
    · simp [deliveryOf, deliverEpoch, h]
    · exact absurd rfl h
    · simp [payloadKind] at h
  case helloAccepted =>
    rcases h with h | ⟨-, -, h⟩ | ⟨-, h⟩
    · simp [deliveryOf, deliverHello, h]
    · exact absurd rfl h
    · simp [payloadKind] at h
  case leaveAccepted =>
    rcases h with h | ⟨h, -⟩ | ⟨-, h⟩
    · simp [deliveryOf, deliverLeave, h]
    · simp [deliveryOf, deliverLeave, h]
    · simp [payloadKind] at h

theorem sameRecords_kept (s : State) : Kept True True (SameRecords s) where
  leaving := .inl trivial
  change := by
    rintro t u h ht
    cases h
    case carrier same _ => exact ⟨ht.1, ht.2.1, same.trans ht.2.2.1, ht.2.2.2⟩
    all_goals exact ht

/-- No accepted frame changes the profile, a tone entry, the response, the sequence counter or a waiting command. -/
theorem exec_accepted_records {c : Instr} {n : StationNo} {p : Payload} (hc : c.acceptedFrame = some (n, p)) (s : State) :
    ∃ t, exec c s = .next t ∧ SameRecords s t := by
  have k := sameRecords_kept s
  refine ⟨_, exec_accepted hc s, k.accepted n p _ s (k.deliveryOf c s _ (.inl trivial) (k.frameEnds s (SameRecords.refl s)))
    (fun h => deliveryOf_listen c s (by simpa using h)) (SameRecords.refl s)⟩

/-- Settles O47. -/
theorem acceptedFramesReachTheirState : Obligations.AcceptedFramesReachTheirState := by
  intro c n p s hc
  refine ⟨canAccept_iff s n p, fun h => ?_, fun can foreign h => ?_, fun h => ?_, fun r hr checked => ?_, ?_⟩
  · rw [exec_accepted hc, accepted, if_neg (by simp [h])]
  · rw [exec_foreign hc can foreign, deliveryOf_discarded hc s (by simpa using h)]
  · simp [frameEnds, h]
  · simp [frameEnds, hr, checked]
  · obtain ⟨t, ht, profile, response, tones, clock, pending, sequence, -⟩ := exec_accepted_records hc s
    exact ⟨t, ht, profile, response, tones, sequence, clock, pending⟩

/-! ### PROPOSE (R17, R18, R20) -/

theorem orderWithId_isSome (s : State) (id : OrderId) : (orderWithId s id).isSome = true ↔ ∃ o ∈ liveOrders s, o.id = id := by
  simp [orderWithId]

theorem orderWithTarget_isSome (s : State) (t : Epoch) :
    (orderWithTarget s t).isSome = true ↔ ∃ o ∈ liveOrders s, o.target = t := by
  simp [orderWithTarget]

theorem leadRefused_iff {s : State} {g : Grid} (hg : s.timer.grid = some g) (target : Epoch) :
    (!leadAccepted s (nowEpoch s) target) = true ↔
      epochDistance g.counter target < s.profile.commitLead + 2 ∨ 32767 < epochDistance g.counter target := by
  simp only [leadAccepted, nowEpoch_of_grid hg, Bool.not_eq_true', Bool.and_eq_false_iff, decide_eq_false_iff_not, not_le]

theorem lacksTone_iff (s : State) (mask : GroupMask) (i : ToneIndex) :
    lacksTone s mask i = true ↔ inMask mask s.profile.group = true ∧ (toneAt s i).valid = false := by
  simp [lacksTone]

/-- The verdict of a MEMBER by the conditions of R17. -/
theorem judgePropose_eq {s : State} {g : Grid} (hg : s.timer.grid = some g) (sender : StationNo) (seq : Seq) (target : Epoch)
    (mask : GroupMask) (tone : ToneIndex) : judgePropose s sender seq target mask tone =
      if (rosterEntry s sender).presence ≠ .member then .refuse .stranger
      else if ∃ o ∈ liveOrders s, o.id = ⟨sender, seq⟩ then .refuse .dupId
      else if epochDistance g.counter target < s.profile.commitLead + 2 ∨ 32767 < epochDistance g.counter target then
        .refuse .late
      else if inMask mask s.profile.group = true ∧ (toneAt s tone).valid = false then .refuse .noTone
      else if ∃ o ∈ liveOrders s, o.target = target then .refuse .clash
      else if 16 ≤ (liveOrders s).length then .refuse .full
      else .accept := by
  simp only [judgePropose, orderWithId_isSome, orderWithTarget_isSome, leadRefused_iff hg, lacksTone_iff]

theorem canRecord_iff (s : State) (id : OrderId) (target : Epoch) : canRecord s id target = true ↔
    (liveOrders s).length < 16 ∧ ∀ o ∈ liveOrders s, o.id ≠ id ∧ o.target ≠ target := by
  simp only [canRecord, Bool.and_eq_true, decide_eq_true_eq, Option.isNone_iff_eq_none, orderWithId_none, orderWithTarget_none]
  exact ⟨fun ⟨⟨room, id⟩, target⟩ => ⟨room, fun o ho => ⟨id o ho, target o ho⟩⟩,
    fun ⟨room, fresh⟩ => ⟨⟨room, fun o ho => (fresh o ho).1⟩, fun o ho => (fresh o ho).2⟩⟩

/-- A MEMBER votes on a PROPOSE, and records it if it accepts (R18). -/
theorem deliverPropose_member {s : State} (member : s.membership.state = .member) (sender : StationNo) (seq : Seq)
    (target : Epoch) (mask : GroupMask) (tone : ToneIndex) (mode : PhaseMode) :
    deliverPropose sender seq target mask tone mode s =
      offer (.vote sender seq (judgePropose s sender seq target mask tone))
        (if judgePropose s sender seq target mask tone = .accept then
          addOrder (proposedOrder sender seq target mask tone mode .accepted) s else s) := by
  simp only [deliverPropose, member]
  cases judgePropose s sender seq target mask tone <;> rfl

/-- An observer records a PROPOSE, or returns to LISTEN where it cannot (R20). -/
theorem deliverPropose_observer {s : State} {target : Epoch} (observer : s.membership.state = .aligning ∨
      (s.membership.state = .arriving ∧ ∃ g, s.timer.grid = some g ∧
        2 ≤ epochDistance g.counter target ∧ epochDistance g.counter target ≤ 32767)) (sender : StationNo) (seq : Seq)
    (mask : GroupMask) (tone : ToneIndex) (mode : PhaseMode) : deliverPropose sender seq target mask tone mode s =
      if canRecord s ⟨sender, seq⟩ target then addOrder (proposedOrder sender seq target mask tone mode .none) s
      else alignFailed .cannotRecord s := by
  rcases observer with aligning | ⟨arriving, g, hg, lead⟩
  · simp only [deliverPropose, aligning]
  · simp only [deliverPropose, arriving, nowEpoch_of_grid hg]
    exact if_pos lead

theorem alignFailed_listen {s : State} (h : s.membership.state = .aligning ∨ s.membership.state = .arriving) (why : AlignFailure) :
    (alignFailed why s).membership.state = .listen := by
  rw [alignFailed_eq h]; rfl

theorem recordingState_of_observer {state : StationState} (h : state = .aligning ∨ state = .arriving) :
    recordingState state = true := by
  rcases h with rfl | rfl <;> rfl

/-- Settles O48. -/
theorem proposeIsJudgedOrRecorded : Obligations.ProposeIsJudgedOrRecorded := by
  intro sender seq target mask tone mode s can foreign leaving
  dsimp only
  have run := exec_foreign (c := .proposeAccepted sender seq target mask tone mode) rfl can foreign
  simp only [deliveryOf] at run
  refine ⟨fun g member hg => ?_, fun g arriving hg short => ?_, fun observer => ?_⟩
  · have member' : (frameEnds s).membership.state = .member := by simpa using member
    have verdict := judgePropose_eq (s := frameEnds s) (g := g) (by simpa using hg) sender seq target mask tone
    simp only [rosterEntry_frameEnds, liveOrders_frameEnds, frameEnds_profile, toneAt, frameEnds_carrier] at verdict
    have recording : recordingState (deliverPropose sender seq target mask tone mode (frameEnds s)).membership.state = true := by
      rw [deliverPropose_member member', (offer_station _ _ ?_).2]
      · split <;> simp [member, recordingState]
      · split <;> simp [leaving]
    rw [run, thenRoster_recording recording, deliverPropose_member member', verdict]
    rfl
  · have still : deliverPropose sender seq target mask tone mode (frameEnds s) = frameEnds s := by
      simp only [deliverPropose, frameEnds_membership, arriving, nowEpoch_of_grid (s := frameEnds s) (g := g) (by simpa using hg)]
      exact if_neg (by omega)
    rw [run, still, thenRoster_recording (by simp [arriving, recordingState])]
  · have seen := deliverPropose_observer (s := frameEnds s) (target := target) (by simpa using observer) sender seq mask tone mode
    have state : s.membership.state = .aligning ∨ s.membership.state = .arriving := observer.imp_right And.left
    have can := canRecord_iff (frameEnds s) ⟨sender, seq⟩ target
    rw [liveOrders_frameEnds] at can
    refine ⟨fun conflict => ?_, fun room fresh => ⟨_, run, ?_⟩⟩
    · rw [if_neg] at seen
      · rw [run, seen, thenRoster_passive]
        rw [alignFailed_listen (by simpa using state)]; rfl
      · rw [can]
        rintro ⟨room, fresh⟩
        rcases conflict with full | ⟨o, ho, same⟩
        · omega
        · exact same.elim (fresh o ho).1 (fresh o ho).2
    · rw [if_pos (can.mpr ⟨room, fresh⟩)] at seen
      rw [seen, thenRoster_recording (by simpa using recordingState_of_observer state)]
      refine ⟨rfl, fun x => ?_⟩
      rw [liveOrders_congr (heardFrom_orders ..), mem_liveOrders_addOrder _ _ _ (by simpa using room), liveOrders_frameEnds]
      rfl

/-! ### VOTE (R9, R10) -/

/-- An update of a ballot that keeps its sequence changes what is found under that sequence. -/
theorem ballotWithSeq_updateBallot {s : State} {seq : Seq} {b : Ballot} (h : ballotWithSeq s seq = some b) {f : Ballot → Ballot}
    (same : ∀ x, (f x).seq = x.seq) : ballotWithSeq (updateBallot seq f s) seq = some (f b) := by
  have keeps : (fun x : Ballot => x.seq == seq) ∘ (fun x => if x.seq == seq then f x else x) = fun x => x.seq == seq := by
    funext x
    simp only [Function.comp_apply]
    split
    · rw [same]
    · rfl
  rw [ballotWithSeq, openBallots_updateBallot, List.find?_map, keeps, ← ballotWithSeq, h, Option.map_some,
    if_pos (by simp [(ballotWithSeq_some h).2])]

/-- A COLLECTING ballot is checked for completion (R10). -/
theorem checkBallot_collecting {s : State} {seq : Seq} {b : Ballot} (h : ballotWithSeq s seq = some b)
    (collecting : b.state = .collecting) : checkBallot seq s = if subset b.electorate b.accepted = true then
      offer (.commit seq b.target) (updateBallot seq (fun x => { x with state := .committing }) s) else s := by
  simp only [checkBallot, h, collecting, true_and, ballotComplete, commitBallot, (ballotWithSeq_some h).2]

theorem checkBallot_state (seq : Seq) {s : State} (leaving : s.membership.leaving = none) :
    (checkBallot seq s).membership = s.membership := by
  have := checkBallot_keeps (SameStation.keptByLosses s) (fun _ _ h => h) seq s ⟨rfl, rfl, leaving⟩
  exact this.2.1

/-- Settles O49. -/
theorem votesSettleTheBallot : Obligations.VotesSettleTheBallot := by
  intro voter origin seq verdict s can foreign member leaving
  dsimp only
  have run := exec_foreign (c := .voteAccepted voter origin seq verdict) rfl can foreign
  simp only [deliveryOf] at run
  have recording : recordingState (frameEnds s).membership.state = true := by simp [member, recordingState]
  have ignored : deliverVote voter origin seq verdict (frameEnds s) = frameEnds s →
      exec (.voteAccepted voter origin seq verdict) s = .next (heardFrom voter (frameEnds s)) := fun h => by
    rw [run, h, thenRoster_recording recording]
  refine ⟨fun other => ignored ?_, fun b found own => ?_⟩
  · simp only [deliverVote, frameEnds_membership, member, true_and, ownNumber_frameEnds, ballotWithSeq_frameEnds]
    split
    case isTrue own => rw [other.resolve_left (not_not.mpr own)]
    case isFalse => rfl
  have found' : ballotWithSeq (frameEnds s) seq = some b := by simpa using found
  have handed : deliverVote voter origin seq verdict (frameEnds s) = match verdict with
      | .accept =>
        if b.state = .collecting ∧ inSet b.electorate voter then
          checkBallot seq (updateBallot seq (fun x => { x with accepted := addTo x.accepted voter }) (frameEnds s))
        else frameEnds s
      | .refuse g => if b.state = .awaitingSend then frameEnds s else abortOwn b (.refused g) voter (frameEnds s) := by
    cases verdict <;>
      simp only [deliverVote, frameEnds_membership, member, own, true_and, ownNumber_frameEnds, found', if_true]
  refine ⟨fun accept collecting elector => ⟨?_, fun again => ?_⟩, fun accept aside => ignored ?_, fun ground refuse awaiting => ignored ?_,
    fun ground refuse sent => ?_⟩
  · subst accept
    have counted := ballotWithSeq_updateBallot (f := fun x => { x with accepted := addTo x.accepted voter }) found' fun _ => rfl
    dsimp only at handed
    rw [if_pos ⟨collecting, elector⟩] at handed
    rw [run, handed, thenRoster_recording]
    · exact congrArg _ (congrArg _ (checkBallot_collecting counted collecting))
    · rw [checkBallot_state _ (by simpa using leaving)]; exact recording
  · refine stationSet_ext fun n => ?_
    rw [inSet_addTo]
    by_cases same : voter = n
    · subst same; simp [again]
    · simp [same]
  · subst accept
    refine handed.trans (if_neg fun ⟨collecting, elector⟩ => aside.elim (· collecting) fun h => ?_)
    rw [elector] at h; cases h
  · subst refuse
    exact handed.trans (if_pos awaiting)
  · subst refuse
    dsimp only at handed
    rw [if_neg sent] at handed
    rw [run, handed, thenRoster_recording]
    rw [(abortOwn_station _ _ _ _ (by simpa using leaving)).2]; exact recording

/-! ### COMMIT and ABORT (R21, R22) -/

theorem setRoster_membership_congr {s t : State} (n : StationNo) (e : RosterEntry) (profile : t.profile = s.profile)
    (membership : t.membership = s.membership) : (setRoster n e t).membership = (setRoster n e s).membership := by
  unfold setRoster
  rw [ownNumber, profile, ← ownNumber]
  split
  · exact membership
  · dsimp only; rw [membership]

theorem raisePeer_membership (n : StationNo) (g : Option Group) (s : State) :
    (raisePeer n g s).membership = (setRoster n ⟨.member, g, 0⟩ s).membership := by
  unfold raisePeer; dsimp only; split <;> rfl

/-- What the Roster makes of a frame depends on the Membership Controller alone (R127). -/
theorem heardFrom_membership_congr {s t : State} (n : StationNo) (profile : t.profile = s.profile)
    (membership : t.membership = s.membership) : (heardFrom n t).membership = (heardFrom n s).membership := by
  rw [heardFrom, heardFrom, raisePeer_membership, raisePeer_membership, rosterEntry_congr membership]
  exact setRoster_membership_congr n _ profile membership

theorem heardLeaving_membership_congr {s t : State} (n : StationNo) (profile : t.profile = s.profile)
    (membership : t.membership = s.membership) : (heardLeaving n t).membership = (heardLeaving n s).membership := by
  simp only [heardLeaving, rosterEntry_congr membership]
  split
  · exact setRoster_membership_congr n _ profile membership
  · exact membership

theorem heardFrom_monitor_congr {s t : State} (n : StationNo) (profile : t.profile = s.profile) (timer : t.timer = s.timer)
    (membership : t.membership = s.membership) (monitor : t.monitor = s.monitor) :
    (heardFrom n t).monitor = (heardFrom n s).monitor := by
  have own : ownNumber t = ownNumber s := by rw [ownNumber, profile, ownNumber]
  simp only [heardFrom, raisePeer, rosterEntry_congr membership, own, membership]
  split <;> simp [post, profile, timer, monitor]

theorem inTransmission_of_idle {s : State} (h : s.bus.sending = none) (e : QueueEntry) : inTransmission s e = false := by
  simp [inTransmission, h]

/-- Settles O50. -/
theorem commitAndAbortSettleTheOrder : Obligations.CommitAndAbortSettleTheOrder := by
  intro sender seq target reason refuser s foreign recording
  dsimp only
  have recording' : recordingState (frameEnds s).membership.state = true := by simpa using recording
  constructor
  · intro can
    have run := exec_foreign (c := .commitAccepted sender seq target) rfl can foreign
    simp only [deliveryOf, deliverCommit, recording', if_true, orderWithId_frameEnds] at run
    refine ⟨fun o found same pending => ?_, fun o found same ready => ?_, fun absent => ?_⟩
    · simp only [found, Option.filter_some, same, beq_self_eq_true, if_true, pending] at run
      rw [thenRoster_recording (s := updateOrder _ _ (frameEnds s)) recording'] at run
      rw [updateOrder, frameEnds_orders] at run
      exact ⟨_, run, fun slot => get_updateWhere_id _ _ _ slot⟩
    · simp only [found, Option.filter_some, same, beq_self_eq_true, if_true, ready] at run
      exact run.trans (congrArg _ (thenRoster_recording recording'))
    · have none : (orderWithId s ⟨sender, seq⟩).filter (fun o => o.target == target) = none := by
        simpa [Option.filter_eq_none_iff] using absent
      simp only [none] at run
      exact run.trans (congrArg _ (thenRoster_recording (s := post _ (frameEnds s)) recording'))
  · intro can
    have run := exec_foreign (c := .abortAccepted sender seq target reason refuser) rfl can foreign
    simp only [deliveryOf, deliverAbort, recording', if_true, orderWithId_frameEnds] at run
    obtain ⟨-, idle, -⟩ := (canAccept_iff ..).mp can
    have heard : ∀ t : State, recordingState t.membership.state = true →
        thenRoster (if reason = .originLeaving then heardLeaving sender else heardFrom sender) t =
          if reason = .originLeaving then heardLeaving sender t else heardFrom sender t := fun t h => by
      rw [thenRoster_recording h]; split <;> rfl
    refine ⟨fun absent => ?_, fun o found same pending => ⟨_, run, ?_⟩⟩
    · have none : (orderWithId s ⟨sender, seq⟩).filter (fun o => o.target == target && o.state == .pending) = none := by
        rw [Option.filter_eq_none_iff]
        intro o found picked
        simp only [Bool.and_eq_true, beq_iff_eq] at picked
        rw [absent o found picked.1] at picked
        cases picked.2
      simp only [none] at run
      exact run.trans (congrArg _ (heard _ recording'))
    · simp only [found, Option.filter_some, same, pending, beq_self_eq_true, Bool.and_self, if_true]
      rw [heard (post _ (purgeOrder _ (removeOrder _ (frameEnds s)))) recording']
      generalize hu : post (.orderAborted refuser ⟨sender, seq⟩ reason) (purgeOrder ⟨sender, seq⟩
        (removeOrder ⟨sender, seq⟩ (frameEnds s))) = u
      have orders : u.orders = { s.orders with schedule := s.orders.schedule.dropWhere fun o => o.id == ⟨sender, seq⟩ } := by
        rw [← hu]; simp [removeOrder]
      have queue : u.queue.entries = s.queue.entries.filter (fun e =>
          frameOrderId (ownNumber s) e.payload != some ⟨sender, seq⟩) := by
        rw [← hu]
        refine (List.filter_congr (q := fun e => frameOrderId (ownNumber s) e.payload != some ⟨sender, seq⟩)
          fun e _ => ?_).trans (by simp [removeOrder])
        simp only [inTransmission_of_idle (s := removeOrder ⟨sender, seq⟩ (frameEnds s)) ((frameEnds_sending s).trans idle), Bool.not_false, Bool.and_true]
        rw [← ownNumber_frameEnds s]
        rfl
      have timer : u.timer = s.timer := by rw [← hu]; simp [removeOrder]
      have carrier : u.carrier = s.carrier := by rw [← hu]; simp [removeOrder]
      have profile : u.profile = s.profile := by rw [← hu]; simp [removeOrder]
      have membership : u.membership = s.membership := by rw [← hu]; simp [removeOrder]
      have monitor : u.monitor = (post (.orderAborted refuser ⟨sender, seq⟩ reason) s).monitor := by
        rw [← hu]; simp [removeOrder, post]
      have live : liveOrders u = (liveOrders s).filter fun x => x.id != ⟨sender, seq⟩ := by
        rw [liveOrders, orders, Table.held_dropWhere]; rfl
      split
      case isTrue =>
        exact ⟨(liveOrders_congr (by simp)).trans live, by simp [queue], by simp [monitor],
          heardLeaving_membership_congr sender (profile.trans (frameEnds_profile s).symm)
            (membership.trans (frameEnds_membership s).symm), by simp [orders], by simp [carrier], by simp [timer]⟩
      case isFalse =>
        exact ⟨(liveOrders_congr (by simp)).trans live, by simp [queue],
          heardFrom_monitor_congr (s := post _ s) sender profile timer membership monitor,
          heardFrom_membership_congr sender (profile.trans (frameEnds_profile s).symm)
            (membership.trans (frameEnds_membership s).symm), by simp [orders], by simp [carrier], by simp [timer]⟩

end Sys2Proof.Machine
end
section
/-! The accepted EPOCH, HELLO and LEAVE frames, the Roster, and the alignment. -/

namespace Sys2Proof.Machine

/-! ### EPOCH before alignment (R91, R93, R99, R107, R108) -/

theorem frameStart_fst (s : State) : (frameStart s).1 = (s.bus.reading.map fun r => r.start).getD s.clock := by
  unfold frameStart; split <;> simp_all

theorem digestMatches_iff (s : State) (d : Digest) : digestMatches s d = true ↔ d = digestOf s.profile := by
  simp [digestMatches]

theorem digestMatches_eq_false {s : State} {d : Digest} (h : d ≠ digestOf s.profile) : digestMatches s d = false := by
  simpa [digestMatches] using h

/-- Once no frame is in transmission, a purge leaves exactly the frames it does not pick out. -/
theorem purgeWhere_entries_of_idle {s : State} (idle : s.bus.sending = none) (p : QueueEntry → Bool) :
    (purgeWhere p s).queue.entries = s.queue.entries.filter fun e => !p e := by
  refine List.filter_congr fun e _ => ?_
  rw [inTransmission_of_idle idle, Bool.not_false, Bool.and_true]

theorem setRoster_foreign {n : StationNo} {s : State} (foreign : n ≠ ownNumber s) (e : RosterEntry) : setRoster n e s =
    { s with membership := { s.membership with roster := s.membership.roster.set n e } } := if_neg foreign

/-- An accepted frame leaves the station as it is, but for the Bus Interface, before it is delivered. -/
theorem exists_frameEnds (s : State) : ∃ b : BusInterface, frameEnds s = { s with bus := b } ∧ b.sending = s.bus.sending :=
  ⟨_, frameEnds_eq s, frameEnds_sending s⟩

/-- A LISTEN or FORMING station as it enters ALIGNING, before the sender is in its Roster (R99, R107). -/
def aligningFrom (mark horizon : Epoch) (start : Nat) (s : State) : State :=
  dropFormingHello { s with
    membership := { membershipCleared .aligning s.membership with blindHorizon := some horizon }
    timer := { timerCleared s.timer with reference := some ⟨mark, start⟩ } }

theorem enterAligning_eq (sender : StationNo) (mark horizon : Epoch) (start : Nat) (s : State) :
    enterAligning sender mark horizon start s = setRoster sender ⟨.member, none, 0⟩ (aligningFrom mark horizon start s) := rfl

/-- Settles O51. -/
theorem epochStartsTheAlignment : Obligations.EpochStartsTheAlignment := by
  intro sender mark horizon digest s can foreign
  have run := exec_foreign (c := .epochAccepted sender mark horizon digest) rfl can foreign
  obtain ⟨-, idle, -⟩ := (canAccept_iff ..).mp can
  obtain ⟨b, base, sending⟩ := exists_frameEnds s
  simp only [deliveryOf, deliverEpoch, frameEnds_membership, digestMatches_frameEnds, frameStart_fst] at run
  dsimp only
  rw [base] at run ⊢
  refine ⟨fun state same => ?_, fun listen other => ?_, fun forming other => ?_, fun recording other => ?_,
    fun aligning same early => ?_, fun fall aligning same ended late => ?_⟩
  · have entered : exec (.epochAccepted sender mark horizon digest) s = .next (enterAligning sender mark horizon
        ((s.bus.reading.map fun r => r.start).getD s.clock) { s with bus := b }) := by
      rcases state with h | h <;> simpa only [h, (digestMatches_iff s digest).mpr same] using run
    rw [enterAligning_eq, setRoster_foreign (s := aligningFrom mark horizon
      ((s.bus.reading.map fun r => r.start).getD s.clock) { s with bus := b }) foreign] at entered
    refine ⟨_, entered, rfl, rfl, rfl, rfl, fun n => ?_, formationSize_empty, rfl, rfl, rfl, rfl, rfl, rfl, ?_, rfl, rfl, rfl⟩
    · exact (Table.get_set ..).trans (if_congr Iff.rfl rfl (Table.get_fill ..))
    · exact purgeWhere_entries_of_idle (s := { s with bus := b, membership := _, timer := _ }) (sending.trans idle) _
  · simp only [listen, digestMatches_eq_false other] at run
    rw [← listen] at run
    exact run
  · simp only [forming, digestMatches_eq_false other] at run
    exact run
  · have noted : exec (.epochAccepted sender mark horizon digest) s =
        .next (noteRunningMismatch sender digest { s with bus := b }) := by
      have state : s.membership.state = .aligning ∨ s.membership.state = .arriving ∨ s.membership.state = .member := by
        cases h : s.membership.state <;> simp_all [recordingState]
      rcases state with h | h | h <;> simpa only [h, digestMatches_eq_false other] using run
    exact noted
  · simp only [aligning, (digestMatches_iff s digest).mpr same, referenceEpoch] at run
    rw [run]
    congr 2
    split
    case h_1 fall ended => exact if_neg (not_lt.mpr (early fall ended))
    case h_2 => rfl
  · simp only [aligning, (digestMatches_iff s digest).mpr same, referenceEpoch, ended] at run
    rw [run, if_pos late]

/-! ### EPOCH of the own cohort (R104, R105) -/

theorem frameStart_snd (s : State) : (frameStart s).2 = match s.bus.reading with
    | some r => r.counter
    | none => s.timer.grid.map fun g => g.counter := by
  unfold frameStart; cases s.bus.reading <;> rfl

theorem currentMark_eq (p : Profile) (c : Epoch) :
    currentMark p c = BitVec.ofNat 16 (c.toNat - c.toNat % 2 ^ p.markExp) := rfl

theorem currentMark_eq_iff (p : Profile) (c mark : Epoch) :
    currentMark p c = mark ↔ c.toNat - c.toNat % 2 ^ p.markExp = mark.toNat := by
  have small : c.toNat - c.toNat % 2 ^ p.markExp < 2 ^ 16 := lt_of_le_of_lt (Nat.sub_le ..) c.isLt
  rw [currentMark_eq, ← BitVec.toNat_inj, BitVec.toNat_ofNat, Nat.mod_eq_of_lt small]

/-- Settles O52. -/
theorem epochIsComparedWithTheGrid : Obligations.EpochIsComparedWithTheGrid := by
  intro sender mark horizon digest s g can foreign state hg same frame atStart
  have run := exec_foreign (c := .epochAccepted sender mark horizon digest) rfl can foreign
  obtain ⟨-, idle, -⟩ := (canAccept_iff ..).mp can
  have start : atStart = (frameStart s).2 := by
    unfold frameStart
    simp only [atStart]
    cases s.bus.reading <;> simp [hg]
  have checked : frame = .next (checkEpoch sender mark atStart (frameEnds s)) := by
    simp only [deliveryOf, deliverEpoch, frameEnds_membership, digestMatches_frameEnds, (digestMatches_iff s digest).mpr same,
      ← start] at run
    rcases state with h | h <;> simpa only [h] using run
  clear_value atStart frame
  have differs : ∀ c, disagreement (frameEnds s) mark (some c) =
      if c.toNat - c.toNat % 2 ^ s.profile.markExp = mark.toNat then none
      else some (BitVec.ofNat 16 (c.toNat - c.toNat % 2 ^ s.profile.markExp)) := fun c => by
    simp only [disagreement, Option.bind_some, frameEnds_profile, currentMark_eq_iff]
    rfl
  refine ⟨fun agrees => ⟨_, checked, ?_⟩, fun c start other => ?_⟩
  · have none : disagreement (frameEnds s) mark atStart = none := by
      cases atStart with
      | none => rfl
      | some c => rw [differs, if_pos (agrees c rfl)]
    simp only [checkEpoch, none, frameEnds_membership]
    have heard : ∀ t : State, t.profile = s.profile → t.timer = s.timer → t.membership = s.membership → t.monitor = s.monitor →
        (heardFrom sender t).membership = (heardFrom sender s).membership ∧
          (heardFrom sender t).monitor = (heardFrom sender s).monitor := fun t profile timer membership monitor =>
      ⟨heardFrom_membership_congr sender profile membership, heardFrom_monitor_congr sender profile timer membership monitor⟩
    split
    case isTrue member =>
      obtain ⟨membership, monitor⟩ := heard (purgeWhere (fun e => match e.payload with
        | .epoch m _ _ => m == mark
        | _ => false) (frameEnds s)) (by simp) (by simp) (by simp) (by simp)
      refine ⟨?_, membership, monitor, by simp, by simp, by simp⟩
      rw [heardFrom_queue, purgeWhere_entries_of_idle ((frameEnds_sending s).trans idle), frameEnds_queue]
      refine List.filter_congr fun e _ => ?_
      cases e.payload <;> rfl
    case isFalse =>
      obtain ⟨membership, monitor⟩ := heard (frameEnds s) (by simp) (by simp) (by simp) (by simp)
      exact ⟨by simp, membership, monitor, by simp, by simp, by simp⟩
  · subst start
    simp only [checkEpoch, differs, if_neg other] at checked
    exact checked

/-! ### Offers whose losses have no consequence -/

/-- The loss of an EPOCH, a HELLO or, outside LEAVING, a LEAVE has no consequence (R155). -/
theorem lose_quiet (n : Nat) {p : Payload} (h : 5 ≤ kindCode (payloadKind p)) {s : State} (leaving : s.membership.leaving = none) :
    lose n p s = s := by
  cases n with
  | zero => rfl
  | succ n =>
    cases p
    case epoch => rfl
    case hello => rfl
    case leave => exact endLeaving_none s leaving
    all_goals simp [payloadKind, kindCode] at h

/-- Offering a frame that only less urgent frames give way to has no consequence beyond the queue (R153, R155). -/
theorem offer_quiet {p : Payload} (h : 5 ≤ kindCode (payloadKind p)) {s : State} (leaving : s.membership.leaving = none) :
    offer p s = offerWith (fun _ u => u) p s := by
  unfold offer offerWith
  split
  · split
    · exact lose_quiet _ h leaving
    · rfl
  · split
    · rfl
    · split
      case isTrue lower =>
        split
        case h_1 victim found =>
          obtain ⟨-, code, -⟩ := mem_of_newestWaiting found
          exact lose_quiet _ (by omega) leaving
        case h_2 => rfl
      case isFalse => exact lose_quiet _ h leaving

/-- Such an offer reads of the Epoch Timer only the counter, and nothing of the Membership Controller. -/
theorem offerQuietly_station (p : Payload) (s : State) (m : Membership) (t : EpochTimer)
    (counter : (t.grid.map fun g => g.counter) = s.timer.grid.map fun g => g.counter) :
    offerWith (fun _ u => u) p { s with membership := m, timer := t } =
      { offerWith (fun _ u => u) p s with membership := m, timer := t } := by
  unfold offerWith
  have code : highestCode { s with membership := m, timer := t } = highestCode s := rfl
  have newest : newestWaiting (highestCode s) { s with membership := m, timer := t } = newestWaiting (highestCode s) s := rfl
  have posted : ∀ (how : FrameLoss) (q : Payload) (u : State), u.timer = s.timer →
      postDropped how q { u with membership := m, timer := t } = { postDropped how q u with membership := m, timer := t } := by
    intro how q u timer
    simp only [postDropped, post, timer, counter]
    rfl
  rw [code, newest]
  dsimp only
  split
  · split
    case isTrue sent => rw [if_pos (show inTransmission s _ = true from sent)]; exact posted _ _ s rfl
    case isFalse waits => rw [if_neg (show ¬ inTransmission s _ = true from waits)]; rfl
  · split
    · rfl
    · split
      · split
        case h_1 => exact posted _ _ (appendFrame p (removeFrame _ s)) rfl
        case h_2 => split <;> rfl
      · exact posted _ _ s rfl

/-! ### HELLO (R91, R94 to R97, R106, R125, R126, R129) -/

theorem kindCode_hello (state : HelloState) (s : State) : 5 ≤ kindCode (payloadKind (ownHello state s)) := by
  simp [ownHello, payloadKind, kindCode]

/-- Entry to FORMING on a HELLO of a sender, with the queue and the Monitor as the offer of the own HELLO leaves them (R94). -/
theorem enterForming_offer {n : StationNo} {s : State} (foreign : n ≠ ownNumber s) (leaving : s.membership.leaving = none)
    (g : Group) : enterForming (some (n, g)) s = { offer (ownHello .forming s) s with
      membership := (formingWith (formationWith n g (formationAlone s)) s).membership
      timer := { s.timer with claims := { s.timer.claims with formation := decide (2 < s.profile.expected) } } } := by
  have size : formationSize (formationWith n g (formationAlone s)) = 2 := by
    have free : (formationAlone s).get n = none := by
      rw [formationAlone, formationWith, Table.get_set_other _ _ foreign, Table.get_fill]
    rw [formationSize_set, free, formationAlone, formationSize_set, formationSize_empty, Table.get_fill]
    rfl
  rw [enterForming_sender foreign, offer_quiet (kindCode_hello ..) leaving, offer_quiet (kindCode_hello ..) rfl,
    releaseIfComplete_eq]
  have eq := offerQuietly_station (ownHello .forming s) s (formingWith (formationWith n g (formationAlone s)) s).membership
    (formingWith (formationWith n g (formationAlone s)) s).timer rfl
  rw [show formingWith (formationWith n g (formationAlone s)) s = { s with
    membership := (formingWith (formationWith n g (formationAlone s)) s).membership
    timer := (formingWith (formationWith n g (formationAlone s)) s).timer } from rfl, eq]
  obtain ⟨⟨profile, -⟩, -⟩ := offerQuietly_keeps (ownHello .forming s) s
  have claim : (true && decide (formationSize (formationWith n g (formationAlone s)) <
      (offerWith (fun _ u => u) (ownHello .forming s) s).profile.expected)) = decide (2 < s.profile.expected) := by
    rw [size, profile]; rfl
  exact congrArg (fun c => ({ offerWith (fun _ u => u) (ownHello .forming s) s with
    membership := (formingWith (formationWith n g (formationAlone s)) s).membership
    timer := { s.timer with claims := { s.timer.claims with formation := c } } } : State)) claim

theorem isPresent_iff (e : RosterEntry) : isPresent e = true ↔ ¬ e.presence = .absent := by
  simp [isPresent]

/-- A known sender's group is taken from its HELLO(FORMING), a new one is answered (R95 to R97). -/
theorem joinFormation_known {s : State} {n : StationNo} (known : s.membership.formation.get n ≠ none) (g : Group) :
    joinFormation n g s = { s with membership :=
      { s.membership with formation := formationWith n g s.membership.formation } } :=
  if_pos (Option.isSome_iff_ne_none.mpr known)

theorem joinFormation_new {s : State} {n : StationNo} (new : s.membership.formation.get n = none)
    (leaving : s.membership.leaving = none) (g : Group) : joinFormation n g s = releaseIfComplete
      { offer (ownHello .forming s) s with
        membership := { s.membership with formation := formationWith n g s.membership.formation }
        timer := s.timer } := by
  have joined : joinFormation n g s = releaseIfComplete (offer (ownHello .forming s) { s with membership :=
      { s.membership with formation := formationWith n g s.membership.formation } }) := if_neg (by simp [new])
  rw [joined, offer_quiet (kindCode_hello ..) leaving, offer_quiet (kindCode_hello ..) (by exact leaving)]
  exact congrArg releaseIfComplete (offerQuietly_station (ownHello .forming s) s _ s.timer rfl)

theorem deliverHello_listen {s : State} (listen : s.membership.state = .listen) (sender : StationNo) (state : HelloState)
    (group : Group) (digest : Digest) : deliverHello sender state group digest s =
      if state = .forming then
        if digestMatches s digest then enterForming (some (sender, group)) s else noteMismatch sender digest s
      else s := by
  unfold deliverHello
  rw [listen]
  cases digestMatches s digest <;> cases state <;> rfl

theorem deliverHello_forming {s : State} (forming : s.membership.state = .forming) (sender : StationNo) (state : HelloState)
    (group : Group) (digest : Digest) : deliverHello sender state group digest s =
      if digestMatches s digest then if state = .forming then joinFormation sender group s else s
      else noteMismatch sender digest s := by
  unfold deliverHello; split <;> simp_all

theorem deliverHello_recording {s : State} (recording : recordingState s.membership.state = true) (sender : StationNo)
    (state : HelloState) (group : Group) (digest : Digest) : deliverHello sender state group digest s =
      if digestMatches s digest then runningHello sender state group s else noteRunningMismatch sender digest s := by
  unfold deliverHello; split <;> simp_all [recordingState]

/-- Settles O53. -/
theorem helloIsTakenByTheState : Obligations.HelloIsTakenByTheState := by
  intro sender state group digest s can foreign leaving
  have run := exec_foreign (c := .helloAccepted sender state group digest) rfl can foreign
  obtain ⟨b, base, -⟩ := exists_frameEnds s
  rw [deliveryOf, base] at run
  dsimp only
  rw [base]
  have matching : digest = digestOf s.profile → digestMatches { s with bus := b } digest = true := (digestMatches_iff _ digest).mpr
  have foreignDigest : digest ≠ digestOf s.profile → ¬ digestMatches { s with bus := b } digest = true :=
    mt (digestMatches_iff _ digest).mp
  refine ⟨fun listen same forming => ?_, fun listen same other => ?_, fun listen other => ?_, fun forming other => ?_,
    fun forming same other => ?_, fun forming same hello => ?_, fun recording other => ?_, fun recording same => ?_⟩
  · rw [deliverHello_listen (s := { s with bus := b }) listen, if_pos forming, if_pos (matching same),
      enterForming_offer (s := { s with bus := b }) foreign leaving] at run
    have quiet := offerQuietly_keeps (ownHello .forming { s with bus := b }) { s with bus := b }
    rw [← offer_quiet (kindCode_hello ..) (s := { s with bus := b }) leaving] at quiet
    obtain ⟨-, -, -, orders, carrier⟩ := quiet
    refine ⟨_, run, rfl, fun n => ?_, rfl, rfl, rfl, rfl, rfl, rfl, orders, carrier⟩
    refine (Table.get_set ..).trans (if_congr Iff.rfl rfl ((Table.get_set ..).trans ?_))
    rw [Table.get_fill]; rfl
  · rw [deliverHello_listen (s := { s with bus := b }) listen, if_neg other] at run
    exact run
  · rw [deliverHello_listen (s := { s with bus := b }) listen, if_neg (foreignDigest other)] at run
    exact run
  · rw [deliverHello_forming (s := { s with bus := b }) forming, if_neg (foreignDigest other)] at run
    exact run
  · rw [deliverHello_forming (s := { s with bus := b }) forming, if_pos (matching same), if_neg other] at run
    exact run
  · rw [deliverHello_forming (s := { s with bus := b }) forming, if_pos (matching same), if_pos hello] at run
    have quiet := offerQuietly_keeps (ownHello .forming { s with bus := b }) { s with bus := b }
    rw [← offer_quiet (kindCode_hello ..) (s := { s with bus := b }) leaving] at quiet
    obtain ⟨⟨profile, -⟩, -, -, orders, carrier⟩ := quiet
    cases h : s.membership.formation.get sender with
    | some x =>
      rw [joinFormation_known (s := { s with bus := b }) (by simp [h])] at run
      exact ⟨_, run, forming, fun n => Table.get_set .., fun _ => ⟨rfl, rfl, rfl⟩, fun new => by simp at new, rfl, rfl⟩
    | none =>
      rw [joinFormation_new (s := { s with bus := b }) h leaving, releaseIfComplete_eq] at run
      refine ⟨_, run, forming, fun n => Table.get_set .., fun known => absurd rfl known, fun _ => ⟨rfl, rfl, ?_⟩, orders, carrier⟩
      dsimp only
      rw [profile]
  · rw [deliverHello_recording (s := { s with bus := b }) recording, if_neg (foreignDigest other)] at run
    exact run
  · rw [deliverHello_recording (s := { s with bus := b }) recording, if_pos (matching same)] at run
    refine ⟨fun forming => ?_, fun arriving => ?_, fun member => ?_⟩
    · subst forming
      rw [run]
      congr 1
      refine (if_neg fun ⟨_, h, _⟩ => by cases h).trans ?_
      simp only [rosterHello, isPresent_iff]
      exact ite_not ..
    · subst arriving
      rw [run]
      congr 1
      exact if_congr ⟨fun ⟨member, _, _⟩ => member, fun member => ⟨member, rfl, foreign⟩⟩ rfl rfl
    · subst member
      rw [run]
      congr 1
      refine (if_neg fun ⟨_, h, _⟩ => by cases h).trans ?_
      exact if_congr (and_congr_right fun _ => and_iff_left foreign) rfl rfl

/-! ### The Roster (R16, R123, R124, R127, R128) -/

theorem heardFrom_foreign {n : StationNo} {s : State} (foreign : n ≠ ownNumber s) : heardFrom n s =
    if (rosterEntry s n).presence ≠ .member ∧ gridState s.membership.state = true then
      post (.peerJoined n (if isPresent (rosterEntry s n) then (rosterEntry s n).group else none))
        (setRoster n ⟨.member, if isPresent (rosterEntry s n) then (rosterEntry s n).group else none, 0⟩ s)
    else setRoster n ⟨.member, if isPresent (rosterEntry s n) then (rosterEntry s n).group else none, 0⟩ s :=
  if_congr (and_congr_right fun _ => and_iff_left foreign) rfl rfl

/-- No ballot has a station as elector or as one that accepted. -/
def NoElector (n : StationNo) (s : State) : Prop :=
  ∀ b ∈ openBallots s, inSet b.electorate n = false ∧ inSet b.accepted n = false

theorem noElector_congr {n : StationNo} {s t : State} (h : ∀ b ∈ openBallots t, b ∈ openBallots s) (hs : NoElector n s) :
    NoElector n t := fun b hb => hs b (h b hb)

theorem endLeaving_openBallots (s : State) : ∀ b ∈ openBallots (endLeaving s), b ∈ openBallots s := by
  unfold endLeaving
  split
  · exact fun _ h => h
  · split
    · intro b hb
      rw [openBallots_cleared (enterIdle s) s.orders rfl] at hb
      cases hb
    · exact fun _ h => h

theorem noElector_keptByLosses (n : StationNo) : KeptByLosses (NoElector n) where
  post _ _ hs := hs
  append _ _ hs := hs
  replace _ _ _ hs := hs
  remove _ _ hs := hs
  displace _ _ hs := hs
  unsent _ _ hs := hs
  abandon id seq s := noElector_congr fun b hb => by
    have hb : b ∈ openBallots (freeBallot seq (removeOrder id s)) := hb
    rw [openBallots_freeBallot] at hb
    exact (List.mem_filter.mp hb).1
  leave s := noElector_congr (endLeaving_openBallots s)

theorem noElector_committing (n : StationNo) (seq : Seq) (s : State) (hs : NoElector n s) :
    NoElector n (updateBallot seq (fun x => { x with state := .committing }) s) := by
  intro b hb
  rw [openBallots_updateBallot] at hb
  obtain ⟨x, hx, rfl⟩ := List.mem_map.mp hb
  split <;> exact hs x hx

/-- The Order Engine with a station out of every electorate (R16). -/
def electorOut (n : StationNo) (s : State) : State :=
  { s with orders := { s.orders with ballots := s.orders.ballots.map (Option.map (withoutElector n)) } }

theorem openBallots_electorOut (n : StationNo) (s : State) :
    openBallots (electorOut n s) = (openBallots s).map (withoutElector n) :=
  Table.held_map_option ..

theorem loseElector_eq (n : StationNo) (s : State) :
    loseElector n s = (openBallots s).foldl (fun t b => checkBallot b.seq t) (electorOut n s) := rfl

theorem noElector_loseElector (n : StationNo) (s : State) : NoElector n (loseElector n s) := by
  refine loseElector_keeps (noElector_keptByLosses n) (noElector_committing n) n s fun b hb => ?_
  have hb : b ∈ openBallots (electorOut n s) := hb
  rw [openBallots_electorOut] at hb
  obtain ⟨x, -, rfl⟩ := List.mem_map.mp hb
  simp [withoutElector, inSet_removeFrom]

/-- A lost peer as the Order Engine hears of it: ABSENT, and reported by a station with a counter (R123). -/
def peerGone (n : StationNo) (how : PeerLoss) (s : State) : State :=
  if gridState s.membership.state then post (.peerLost n how) (setRoster n RosterEntry.absent s)
  else setRoster n RosterEntry.absent s

theorem losePeer_eq (n : StationNo) (how : PeerLoss) (s : State) : losePeer n how s = loseElector n (peerGone n how s) := rfl

theorem peerGone_orders (n : StationNo) (how : PeerLoss) (s : State) : (peerGone n how s).orders = s.orders := by
  unfold peerGone; split <;> simp

theorem peerGone_queue (n : StationNo) (how : PeerLoss) (s : State) : (peerGone n how s).queue = s.queue := by
  unfold peerGone; split <;> simp

theorem peerGone_monitor (n : StationNo) (how : PeerLoss) (s : State) : (peerGone n how s).monitor =
    if gridState s.membership.state = true then (post (.peerLost n how) s).monitor else s.monitor := by
  unfold peerGone; split <;> simp [post]

/-- Settles O54. -/
theorem rosterFollowsTheFrames : Obligations.RosterFollowsTheFrames := by
  intro n how reason s foreign leaving
  dsimp only
  refine ⟨?_, fun m => ?_, losePeer_state n how s leaving, ?_, fun none => ?_, fun b only collecting complete room => ?_,
    fun can => ⟨fun recording => ?_, fun forming => ?_⟩⟩
  · rw [heardFrom_foreign foreign, setRoster_foreign foreign]
    simp only [isPresent_iff, ite_not]
  · rw [losePeer_roster n how s leaving]
    exact if_congr (and_iff_left foreign) rfl rfl
  · exact noElector_loseElector n _
  · rw [losePeer_eq, loseElector_eq, openBallots_congr (peerGone_orders ..), none]
    exact peerGone_monitor ..
  · have ballots : openBallots (electorOut n (peerGone n how s)) = [withoutElector n b] := by
      rw [openBallots_electorOut, openBallots_congr (peerGone_orders ..), only]; rfl
    have found : ballotWithSeq (electorOut n (peerGone n how s)) b.seq = some (withoutElector n b) := by
      rw [ballotWithSeq, ballots]; simp [withoutElector]
    have queue : (electorOut n (peerGone n how s)).queue = s.queue := peerGone_queue ..
    rw [losePeer_eq, loseElector_eq, openBallots_congr (peerGone_orders ..), only, List.foldl_cons, List.foldl_nil,
      checkBallot_collecting found collecting,
      if_pos (show subset (withoutElector n b).electorate (withoutElector n b).accepted = true from complete), offer_room]
    · constructor
      · refine (openBallots_updateBallot ..).trans ?_
        rw [ballots]
        simp [withoutElector]
      · show (electorOut n (peerGone n how s)).queue.entries ++ [⟨(electorOut n (peerGone n how s)).queue.nextIdent,
          (electorOut n (peerGone n how s)).queue.nextIdent, .commit b.seq b.target⟩] = _
        rw [queue]
    · exact fun _ _ => rfl
    · show (electorOut n (peerGone n how s)).queue.entries.length < 8
      rw [queue]; exact room
  · have run := exec_foreign (c := .leaveAccepted n reason) rfl can foreign
    have left : deliverLeave n reason (frameEnds s) =
        if isPresent (rosterEntry (frameEnds s) n) then losePeer n (.left reason) (frameEnds s) else frameEnds s := by
      unfold deliverLeave
      rw [frameEnds_membership]
      cases h : s.membership.state <;> simp_all [recordingState]
    rw [run, deliveryOf, left]
    simp only [rosterEntry_frameEnds, isPresent_iff, ite_not]
  · have run := exec_foreign (c := .leaveAccepted n reason) rfl can foreign
    obtain ⟨b, base, -⟩ := exists_frameEnds s
    have left : deliverLeave n reason { s with bus := b } = { s with bus := b, membership :=
        { s.membership with formation := s.membership.formation.set n none } } := by
      unfold deliverLeave
      dsimp only
      rw [forming]
      exact if_neg foreign
    rw [deliveryOf, base, left] at run
    exact ⟨_, run, fun m => Table.get_set .., rfl, rfl, rfl, rfl⟩

/-! ### The alignment (R49 to R51, R110) -/

theorem isMarkPulse_iff (p : Profile) (length : Nat) : isMarkPulse p length = true ↔
    epochLength p / 2 ≤ length + p.skewWindow ∧ length ≤ epochLength p / 2 + p.skewWindow := by
  rw [isMarkPulse, Bool.and_eq_true]
  exact and_congr decide_eq_true_iff decide_eq_true_iff

/-- A purge of an order that no held frame refers to leaves the queue as it is. -/
theorem purgeOrder_queue {id : OrderId} {s : State}
    (h : ∀ e ∈ s.queue.entries, frameOrderId (ownNumber s) e.payload ≠ some id) : (purgeOrder id s).queue = s.queue := by
  unfold purgeOrder purgeWhere
  dsimp only
  rw [List.filter_eq_self.mpr fun e he => by simp [h e he]]

theorem foldl_purgeOrder_queue (l : List Order) {s : State}
    (h : ∀ e ∈ s.queue.entries, frameOrderId (ownNumber s) e.payload = none) :
    (l.foldl (fun t o => purgeOrder o.id t) s).queue = s.queue := by
  induction l generalizing s with
  | nil => rfl
  | cons o l ih =>
    have same : (purgeOrder o.id s).queue = s.queue := purgeOrder_queue fun e he => by simp [h e he]
    rw [List.foldl_cons, ih (by rw [same]; exact h), same]

/-- Alignment at a station whose queue has room for its HELLO and holds no frame of an order (R110). -/
theorem align_eq {s : State} (room : s.queue.entries.length < 8)
    (frames : ∀ e ∈ s.queue.entries, frameOrderId (ownNumber s) e.payload = none ∧ payloadKind e.payload ≠ .hello)
    (counter : Epoch) (phase : Nat) : ∃ b : BusInterface, align counter phase s = appendFrame (ownHello .arriving s) { s with
      bus := b
      orders := { s.orders with schedule := s.orders.schedule.dropWhere fun o => !aheadOf counter o.target }
      timer := { timerCleared s.timer with grid := some ⟨counter, phase, 0, false⟩ }
      membership := { s.membership with
        state := .arriving, alignTimer := 0, blindHorizon := s.membership.blindHorizon.filter (aheadOf counter) } } := by
  obtain ⟨q, b, eq⟩ := foldl_purgeOrder_eq ((liveOrders s).filter fun o => !aheadOf counter o.target) s
  have queue := foldl_purgeOrder_queue ((liveOrders s).filter fun o => !aheadOf counter o.target) fun e he => (frames e he).1
  rw [eq] at queue
  obtain rfl : q = s.queue := queue
  refine ⟨b, ?_⟩
  unfold align
  dsimp only
  rw [eq]
  refine offer_room _ _ (fun e he => ?_) room
  have other := (frames e he).2
  cases h : e.payload <;> simp_all [ownHello, sameLimit, payloadKind]

theorem keptPulse_none {s : State} (h : s.bus.reading = none) (fall : Nat) : keptPulse fall s = none := by
  simp [keptPulse, h]

/-- The pulse kept is the first one that fell after the START of the frame being read (R51). -/
theorem keptPulse_some {s : State} {r : Reading} (h : s.bus.reading = some r) (fall : Nat) : keptPulse fall s =
    if r.start < fall then some (match s.timer.endedPulse with
      | some earlier => if r.start < earlier then earlier else fall
      | none => fall)
    else none := by
  simp only [keptPulse, h]
  cases s.timer.endedPulse with
  | none => rfl
  | some earlier => by_cases late : r.start < earlier <;> simp [Option.filter_some, late]

/-- Settles O45. -/
theorem alignmentPulseSetsTheCounter : Obligations.AlignmentPulseSetsTheCounter := by
  intro s aligning
  have run : exec .alignmentPulseEnd s = .next (match s.timer.pulseFall with
      | none => s
      | some fall => _) := congrArg Host.Outcome.next (if_pos aligning)
  refine ⟨fun unseen => by rw [run, unseen], fun fall seen => ?_⟩
  rw [run, seen]
  dsimp only
  refine ⟨fun other => ?_, fun r long short reference late leaving room frames => ?_, fun long short early => ?_⟩
  · rw [if_neg]
    rw [isMarkPulse_iff]; omega
  · obtain ⟨b, eq⟩ := align_eq (s := { s with timer := { s.timer with pulseFall := none } }) room frames
      (r.mark + BitVec.ofNat 16 (markInterval s.profile)) (s.clock - fall)
    rw [if_pos ((isMarkPulse_iff ..).mpr ⟨long, short⟩)]
    split
    case h_2 none => rw [reference] at none; cases none
    case h_1 x found =>
    obtain rfl := Option.some.inj (reference.symm.trans found)
    rw [if_pos late, eq]
    refine ⟨_, rfl, ?_⟩
    refine ⟨rfl, rfl, rfl, rfl, rfl, ?_, rfl, rfl, rfl, rfl, rfl⟩
    refine (Table.held_dropWhere ..).trans (List.filter_congr fun o _ => ?_)
    simp [markInterval]
  · rw [if_pos ((isMarkPulse_iff ..).mpr ⟨long, short⟩)]
    refine ⟨keptPulse fall s, ?_, fun none => keptPulse_none none fall, fun fr reading => ⟨fun before => ?_, fun after => ?_⟩⟩
    · split
      case h_1 r reference => rw [if_neg (not_lt.mpr (early r reference))]
      case h_2 => rfl
    · rw [keptPulse_some reading, if_neg (not_lt.mpr before)]
    · rw [keptPulse_some reading, if_pos after]
      cases s.timer.endedPulse with
      | none => rfl
      | some earlier => dsimp only; split <;> rfl

end Sys2Proof.Machine
end
section
/-! The Cohort Bus: slots and framing, the start of an attempt, frames that fail, and the outcomes of an attempt. -/

namespace Sys2Proof.Machine

/-! ### Slots (R135 to R137, R140) -/

theorem spoilPlace_eq_some_iff (slots : List Bool) (k : Nat) : spoilPlace slots = some k ↔
    13 ≤ slots.length ∧ k = 29 + 8 * natOf ((slots.drop 9).take 4) := by
  simp only [spoilPlace, lengthRead, slotField]
  split
  · simp; omega
  · simp; omega

theorem framingDone_iff (slots : List Bool) : framingDone slots = true ↔
    13 ≤ slots.length ∧ 34 + 8 * natOf ((slots.drop 9).take 4) ≤ slots.length := by
  simp only [framingDone, Option.any_eq_true, spoilPlace_eq_some_iff, Config.endSlots]
  constructor
  · rintro ⟨k, ⟨read, rfl⟩, done⟩
    have done := of_decide_eq_true done
    exact ⟨read, by omega⟩
  · rintro ⟨read, done⟩
    exact ⟨_, ⟨read, rfl⟩, decide_eq_true (by omega)⟩

theorem slotEnds_iff (s : State) : slotEnds s = true ↔
    s.membership.state ≠ .idle ∧ s.profile.slotDivider ≤ s.bus.slotTimer + 1 := by
  simp [slotEnds]

/-- A slot read at its reading clock (R135). -/
theorem exec_slotReading {s : State} (runs : s.membership.state ≠ .idle) (clock : s.bus.slotTimer = s.profile.slotDivider / 2)
    (unread : s.bus.slotRead = false) (cd : Level) : exec (.slotReading cd) s = .next { s with bus :=
      match s.bus.reading with
      | none => slotOutside cd { s.bus with slotRead := true }
      | some r => slotInside cd r { s.bus with slotRead := true } } :=
  congrArg Host.Outcome.next (if_pos ⟨runs, clock, unread⟩)

theorem slotOutside_eq (cd : Level) (b : BusInterface) : slotOutside cd b =
    { b with idleCount := if cd = .high then min (b.idleCount + 1) 6 else 0 } := by
  cases cd <;> rfl

theorem driveAtEdge_sending {s : State} {r : Reading} {a : Sending} (reading : s.bus.reading = some r)
    (sending : s.bus.sending = some a) : driveAtEdge s = ((s.bus.spoiling && spoilPlace r.slots == some r.slots.length) ||
      (!a.mismatch && (frameSlots (ownNumber s) a.payload)[r.slots.length]? == some false)) := by
  simp only [driveAtEdge, reading, sending]

theorem driveAtEdge_idle {s : State} {r : Reading} (reading : s.bus.reading = some r) (sending : s.bus.sending = none) :
    driveAtEdge s = (s.bus.spoiling && spoilPlace r.slots == some r.slots.length) := by
  simp only [driveAtEdge, reading, sending, Bool.or_false]

/-- Settles O60. -/
theorem slotsFrameTheBus : Obligations.SlotsFrameTheBus := by
  intro cd s runs
  have clocked : s.profile.slotDivider ≤ s.bus.slotTimer + 1 ∧ (pinsNow s).rstn = .high ∧ s.bus.withdrawAsked = false →
      exec .carrierSample s = .next (tick s) ∧ (tick s).bus = busAtEdge s := fun ⟨ends, high, stays⟩ =>
    ⟨exec_carrierSample_high high stays, clockBus_edge s ((slotEnds_iff s).mpr ⟨runs, ends⟩)⟩
  refine ⟨fun other => congrArg Host.Outcome.next (if_neg fun ⟨_, clock, unread⟩ => other ⟨clock, unread⟩),
    fun outside => ⟨congrArg Host.Outcome.next (if_pos ⟨runs, outside⟩), fun ⟨clock, unread⟩ => ?_, fun edge => ?_⟩,
    fun r reading => ⟨congrArg Host.Outcome.next (if_neg fun ⟨_, outside⟩ => by rw [reading] at outside; cases outside),
      fun ⟨clock, unread⟩ empty high => ?_, fun ⟨clock, unread⟩ goes => ?_, fun edge => ?_⟩⟩
  · rw [exec_slotReading runs clock unread, outside]
    dsimp only
    rw [slotOutside_eq]
  · obtain ⟨run, bus⟩ := clocked edge
    refine ⟨_, run, bus.trans ?_⟩
    obtain ⟨-, -, stays⟩ := edge
    simp [busAtEdge, outside, driveAtEdge, stays]
  · rw [exec_slotReading runs clock unread, reading]
    simp only [slotInside, empty, high, List.isEmpty_nil, beq_self_eq_true, Bool.and_self, if_true, slotOutside_eq]
  · rw [exec_slotReading runs clock unread, reading]
    have inside : (r.slots.isEmpty && cd == .high) = false := by
      rcases goes with h | rfl
      · simp [h]
      · simp
    simp only [slotInside, inside, Bool.false_eq_true, if_false]
    cases cd <;> rfl
  · obtain ⟨run, bus⟩ := clocked edge
    refine ⟨_, run, ?_⟩
    have done : (s.bus.reading.any fun r => framingDone r.slots) = framingDone r.slots := by rw [reading]; rfl
    have drive : pullsData (tick s) = driveAtEdge s := by rw [pullsData, bus, busAtEdge_drive]
    refine ⟨?_, ?_, fun h => ?_, fun h => ?_, fun a sending clean silent => ?_, fun other => ?_⟩
    · rw [bus, busAtEdge_slotTimer]
    · rw [bus, busAtEdge_slotRead]
    · rw [bus, busAtEdge]
      simp only [done, (framingDone_iff r.slots).mpr h, if_true, and_self]
    · have undone : framingDone r.slots = false := by rw [← Bool.not_eq_true, framingDone_iff]; exact h
      rw [bus, busAtEdge]
      simp only [done, undone, Bool.false_eq_true, if_false, and_true]
      exact reading
    · rw [drive, driveAtEdge_sending reading sending, clean, silent, Bool.eq_iff_iff, decide_eq_true_iff]
      simp
    · have quiet : driveAtEdge s = (s.bus.spoiling && spoilPlace r.slots == some r.slots.length) := by
        cases sending : s.bus.sending with
        | none => exact driveAtEdge_idle reading sending
        | some a => rw [driveAtEdge_sending reading sending, other a sending]; simp
      rw [drive, quiet]
      congr 1
      rw [Bool.eq_iff_iff, beq_iff_eq, decide_eq_true_iff, spoilPlace_eq_some_iff]

/-! ### ATTEMPT_START (R103, R140, R144, R156) -/

theorem goesBefore_iff (a b : QueueEntry) : goesBefore a b = true ↔
    kindCode (payloadKind a.payload) < kindCode (payloadKind b.payload) ∨
      (kindCode (payloadKind a.payload) = kindCode (payloadKind b.payload) ∧ a.age < b.age) := by
  simp [goesBefore]

theorem goesBefore_asymm {a b : QueueEntry} (h : goesBefore a b = true) : goesBefore b a = false := by
  rw [← Bool.not_eq_true, goesBefore_iff]
  rw [goesBefore_iff] at h
  omega

/-- One comparison of the selection (R156). -/
def moreUrgent (best : Option QueueEntry) (e : QueueEntry) : Option QueueEntry :=
  match best with
  | none => some e
  | some b => if goesBefore e b then some e else some b

/-- Whether a frame is `e` or one that `e` goes before. -/
def NotBefore (e x : QueueEntry) : Prop := x = e ∨ goesBefore e x = true

theorem moreUrgent_notBefore {e x : QueueEntry} {best : Option QueueEntry} (hx : NotBefore e x)
    (hbest : ∀ b ∈ best, NotBefore e b) : ∀ b ∈ moreUrgent best x, NotBefore e b := by
  intro b hb
  unfold moreUrgent at hb
  split at hb
  · obtain rfl := Option.some.inj hb; exact hx
  · split at hb
    · obtain rfl := Option.some.inj hb; exact hx
    · obtain rfl := Option.some.inj hb; exact hbest _ rfl

theorem moreUrgent_of_first {e x : QueueEntry} {best : Option QueueEntry} (hx : NotBefore e x)
    (hbest : ∀ b ∈ best, NotBefore e b) (first : best = some e ∨ x = e) : moreUrgent best x = some e := by
  unfold moreUrgent
  rcases first with rfl | rfl
  · rcases hx with rfl | before
    · simp
    · simp [goesBefore_asymm before]
  · split
    · rfl
    case h_2 b =>
      rcases hbest b rfl with rfl | before
      · simp
      · simp [before]

/-- The selection names the frame that goes before all others. -/
theorem foldl_moreUrgent {e : QueueEntry} (l : List QueueEntry) (best : Option QueueEntry) (hl : ∀ x ∈ l, NotBefore e x)
    (hbest : ∀ b ∈ best, NotBefore e b) (held : best = some e ∨ e ∈ l) : l.foldl moreUrgent best = some e := by
  induction l generalizing best with
  | nil => simpa using held
  | cons x l ih =>
    have hx := hl x (List.mem_cons_self ..)
    refine ih _ (fun y hy => hl y (List.mem_cons_of_mem _ hy)) (moreUrgent_notBefore hx hbest) ?_
    rcases held with isBest | here
    · exact .inl (moreUrgent_of_first hx hbest (.inl isBest))
    · rcases List.mem_cons.mp here with rfl | later
      · exact .inl (moreUrgent_of_first hx hbest (.inr rfl))
      · exact .inr later

theorem selectFrame_idle {s : State} (idle : s.bus.sending = none) : selectFrame s = s.queue.entries.foldl moreUrgent none := by
  unfold selectFrame
  rw [List.filter_eq_self.mpr fun e _ => by rw [inTransmission_of_idle idle]; rfl]
  rfl

/-- The farther of two epochs ahead of a counter (R103). -/
def farther (c best t : Epoch) : Epoch := if epochDistance c best < epochDistance c t then t else best

theorem foldl_farther (c : Epoch) (l : List Epoch) (first : Epoch) : l.foldl (farther c) first ∈ first :: l ∧
    ∀ x ∈ first :: l, epochDistance c x ≤ epochDistance c (l.foldl (farther c) first) := by
  induction l generalizing first with
  | nil => simp
  | cons t l ih =>
    obtain ⟨held, farthest⟩ := ih (farther c first t)
    have both : epochDistance c first ≤ epochDistance c (farther c first t) ∧
        epochDistance c t ≤ epochDistance c (farther c first t) := by
      unfold farther; split <;> omega
    have atLeast := farthest _ (List.mem_cons_self ..)
    rw [List.foldl_cons]
    refine ⟨?_, fun x hx => ?_⟩
    · rcases List.mem_cons.mp held with same | later
      · rw [same]; unfold farther; split <;> simp
      · exact List.mem_cons_of_mem _ (List.mem_cons_of_mem _ later)
    · rcases List.mem_cons.mp hx with rfl | hx
      · exact both.1.trans atLeast
      · rcases List.mem_cons.mp hx with rfl | hx
        · exact both.2.trans atLeast
        · exact farthest x (List.mem_cons_of_mem _ hx)

/-- The horizon of an EPOCH frame is the farthest target ahead, or the mark epoch itself (R103). -/
theorem horizonNow_spec {s : State} {g : Grid} (hg : s.timer.grid = some g) (mark : Epoch) :
    let ahead := ((liveOrders s).map (fun o => o.target) ++ s.membership.blindHorizon.toList).filter (aheadOf g.counter)
    (ahead = [] → horizonNow s mark = mark) ∧ (ahead ≠ [] → horizonNow s mark ∈ ahead ∧
      ∀ x ∈ ahead, epochDistance g.counter x ≤ epochDistance g.counter (horizonNow s mark)) := by
  intro ahead
  have eq : horizonNow s mark = match ahead with
      | [] => mark
      | c :: rest => rest.foldl (farther g.counter) c := by
    simp only [horizonNow, hg]; rfl
  rw [eq]
  cases h : ahead with
  | nil => exact ⟨fun _ => rfl, fun other => absurd rfl other⟩
  | cons c rest => exact ⟨fun empty => absurd empty (List.cons_ne_nil _ _), fun _ => foldl_farther g.counter rest c⟩

/-- Settles O57. -/
theorem attemptStartTakesTheMostUrgentFrame : Obligations.AttemptStartTakesTheMostUrgentFrame := by
  intro s limits
  obtain ⟨-, apart, -⟩ := limits
  have start : atStart s = true ↔ (s.bus.reading = none → s.bus.slotTimer = 0) ∧
      ∀ r, s.bus.reading = some r → r.slots = [] ∧ r.start = s.clock := by
    unfold atStart
    cases s.bus.reading <;> simp
  refine ⟨fun h => ?_, fun runs idle free outside inside => ⟨fun empty => ?_, fun e he first => ?_⟩⟩
  · refine congrArg Host.Outcome.next (if_neg fun ⟨runs, idle, free, begins⟩ => ?_)
    obtain ⟨outside, inside⟩ := start.mp begins
    rcases h with h | h | h | ⟨none, h⟩ | ⟨r, reading, h⟩
    · exact runs h
    · exact h idle
    · exact h (by simpa [busIdle, Config.idleSlots] using free)
    · exact h (outside none)
    · obtain ⟨unread, now⟩ := inside r reading
      exact h.elim (· unread) (· now)
  all_goals
    have begins : s.membership.state ≠ .idle ∧ s.bus.sending = none ∧ busIdle s = true ∧ atStart s = true :=
      ⟨runs, idle, by simp [busIdle, free, Config.idleSlots], start.mpr ⟨outside, inside⟩⟩
  · refine congrArg Host.Outcome.next ((if_pos begins).trans ?_)
    rw [selectFrame_idle idle, empty]
    rfl
  · have symm : ∀ a b : QueueEntry, a.age ≠ b.age → b.age ≠ a.age := fun _ _ h => h.symm
    have selected : selectFrame s = some e := by
      rw [selectFrame_idle idle]
      refine foldl_moreUrgent _ _ (fun x hx => ?_) (fun _ held => nomatch held) (.inr he)
      by_cases same : x = e
      · exact .inl same
      · refine .inr ((goesBefore_iff ..).mpr ?_)
        rcases first x hx with lower | ⟨kind, older⟩
        · exact .inl lower
        · have := pairwise_apart symm (apart.imp fun ⟨h, _, _⟩ => h.ne) hx he same
          exact .inr ⟨by rw [kind], by omega⟩
    refine ⟨filledPayload s e.payload, ?_, fun other => ?_, fun mark horizon digest g frame hg => ?_⟩
    · refine congrArg Host.Outcome.next ((if_pos begins).trans ?_)
      rw [selected]
      dsimp only
      rw [free]
      rfl
    · cases h : e.payload <;> first | rfl | exact absurd h (other _ _ _)
    · rw [frame]
      obtain ⟨none, some⟩ := horizonNow_spec hg mark
      exact ⟨_, rfl, none, some⟩

end Sys2Proof.Machine
end
section
/-! Frames that fail: the spoil slot, the CHECK withdrawal and what a passive receiver discards. -/

namespace Sys2Proof.Machine

theorem slotsRead_some {s : State} {r : Reading} (h : s.bus.reading = some r) : slotsRead s = r.slots := by
  simp [slotsRead, h]

theorem slotsRead_none {s : State} (h : s.bus.reading = none) : slotsRead s = [] := by simp [slotsRead, h]

/-- What was read of the spoil slot of the frame being read (R145). -/
theorem spoilRead_slotsRead (s : State) : spoilRead (slotsRead s) = s.bus.reading.bind fun r => spoilRead r.slots := by
  cases h : s.bus.reading with
  | none => rw [slotsRead_none h]; rfl
  | some r => rw [slotsRead_some h]; rfl

/-- Whether a received frame can have failed, in terms of what was read of it (R86, R145, R147). -/
theorem canFail_iff (s : State) : canFail s = true ↔ s.membership.state ≠ .idle ∧ s.bus.sending = none ∧
    s.bus.spoiling = false ∧ (∀ r, s.bus.reading = some r → r.settled = false) ∧
    ∀ r, s.bus.reading = some r → checkRead r.slots = true → ownTest r.slots = false := by
  cases h : s.bus.reading with
  | none =>
    have unread : checkRead ([] : List Bool) = false := rfl
    simp [canFail, frameSettled, h, slotsRead_none h, unread, and_assoc]
  | some r =>
    cases hc : checkRead r.slots <;> simp [canFail, frameSettled, h, slotsRead_some h, hc, and_assoc]

theorem frameSettled_iff (s : State) : frameSettled s = false ↔ ∀ r, s.bus.reading = some r → r.settled = false := by
  cases h : s.bus.reading <;> simp [frameSettled, h]

theorem endsUnread_of_read {s : State} {r : Reading} (h : s.bus.reading = some r) (read : checkRead r.slots = true) :
    endsUnread s = s := if_pos (by simp [h, read])

/-- A frame that was not read slot by slot is over: nothing is being read, and no spoil slot is driven for it. -/
theorem frameEnds_unread {s : State} (unread : ∀ r, s.bus.reading = some r → checkRead r.slots = false) :
    frameEnds s = { s with bus := { s.bus with reading := none, idleCount := 0, spoiling := false } } := by
  refine if_neg ?_
  cases h : s.bus.reading with
  | none => simp
  | some r => simp [unread r h]

theorem endsUnread_of_unread {s : State} (unread : ∀ r, s.bus.reading = some r → checkRead r.slots = false) :
    endsUnread s = frameEnds s := by
  refine if_neg ?_
  cases h : s.bus.reading with
  | none => simp
  | some r => simp [unread r h]

theorem atSpoilSlot_of_unread {s : State} (unread : ∀ r, s.bus.reading = some r → checkRead r.slots = false) :
    atSpoilSlot s = true := by
  cases h : s.bus.reading with
  | none => simp [atSpoilSlot, h]
  | some r => simp [atSpoilSlot, h, unread r h]

theorem atSpoilSlot_iff {s : State} {r : Reading} (h : s.bus.reading = some r) (read : checkRead r.slots = true) :
    atSpoilSlot s = true ↔ spoilPlace r.slots = some r.slots.length ∧ s.bus.slotTimer = 0 := by
  simp [atSpoilSlot, h, read]

theorem spoilSlotRead_iff (s : State) :
    spoilSlotRead s = true ↔ (s.bus.reading.bind fun r => spoilRead r.slots) ≠ none := by
  cases h : s.bus.reading <;> simp [spoilSlotRead, h, Option.isSome_iff_ne_none]

theorem exec_carrierSample_asked {s : State} (high : (pinsNow s).rstn = .high) (ends : slotEnds s = true)
    (asked : s.bus.withdrawAsked = true) : exec .carrierSample s = .next (withdrawIf (spoilSlotRead s) (tick s)) := by
  show Host.Outcome.next _ = _
  rw [high]
  simp [ends, asked]

theorem busAtEdge_withdrawAsked (s : State) : (busAtEdge s).withdrawAsked = (s.bus.withdrawAsked && !spoilSlotRead s) := by
  unfold busAtEdge; dsimp only; split <;> rfl

/-! ### What a withdrawal leaves of the Bus Interface -/

/-- While the station is LEAVING it drives what it drove. -/
def DrivesAs (s t : State) : Prop :=
  t.membership.state = .leaving → t.bus.spoiling = s.bus.spoiling ∧ t.bus.drive = s.bus.drive

theorem forgetAttempts_drive (gone : Nat → Bool) (b : BusInterface) :
    (forgetAttempts gone b).spoiling = b.spoiling ∧ (forgetAttempts gone b).drive = b.drive := by
  unfold forgetAttempts; split <;> exact ⟨rfl, rfl⟩

theorem drivesAs_forget {s t u : State} (gone : Nat → Bool) (membership : u.membership = t.membership)
    (bus : ∃ b : BusInterface, u.bus = forgetAttempts gone b ∧ b.spoiling = t.bus.spoiling ∧ b.drive = t.bus.drive)
    (h : DrivesAs s t) : DrivesAs s u := by
  intro leaving
  obtain ⟨b, eq, spoiling, drive⟩ := bus
  obtain ⟨keptSpoiling, keptDrive⟩ := forgetAttempts_drive gone b
  obtain ⟨sameSpoiling, sameDrive⟩ := h (by rw [← membership]; exact leaving)
  rw [eq]
  exact ⟨keptSpoiling.trans (spoiling.trans sameSpoiling), keptDrive.trans (drive.trans sameDrive)⟩

theorem drivesAs_purge (s : State) (p : QueueEntry → Bool) (t : State) (h : DrivesAs s t) : DrivesAs s (purgeWhere p t) :=
  drivesAs_forget (t := t) _ rfl ⟨_, rfl, rfl, rfl⟩ h

theorem drivesAs_keptByLosses (s : State) : KeptByLosses (DrivesAs s) where
  post _ _ h := h
  append _ _ h := h
  replace _ _ t h := drivesAs_forget (t := t) _ rfl ⟨_, rfl, rfl, rfl⟩ h
  remove _ t h := drivesAs_forget (t := t) _ rfl ⟨_, rfl, rfl, rfl⟩ h
  displace _ _ h := h
  unsent _ _ h := h
  abandon _ _ _ h := drivesAs_purge s _ (freeBallot _ (removeOrder _ _)) h
  leave t h := by
    unfold endLeaving
    split
    · exact h
    · split <;> exact fun leaving => by cases leaving

/-- What the losses, a purge and the end of all orders keep, a withdrawal keeps from the entry to LEAVING on. -/
theorem withdraw_keeps {P : State → Prop} (h : KeptByLosses P) (purge : ∀ p t, P t → P (purgeWhere p t))
    (clear : ∀ t, P t → P { t with orders := ordersCleared t.orders }) (cause : Cause) (s : State)
    (entered : ∀ d, P (enterLeaving cause d (withdrawNotice cause s))) (hs : P s) : P (withdraw cause s) := by
  have offered : ∀ (own : StationNo) (l : List Ballot) (t : State), P t → P (offerLeaving own l t) := fun own l => by
    induction l with
    | nil => exact fun _ ht => ht
    | cons b l ih => exact fun t ht => ih _ (offerWith_keeps h (fun _ _ h => h) _ t ht)
  have posted : ∀ (own : StationNo) (l : List Ballot) (t : State), P t → P (postLeaving own l t) := fun own l => by
    induction l with
    | nil => exact fun _ ht => ht
    | cons b l ih => exact fun t ht => ih _ (h.post _ t ht)
  unfold withdraw
  split
  case isFalse => exact hs
  case isTrue =>
    dsimp only
    generalize (if rejoinLimited s.profile.rejoinLimit cause s.membership.withdrawals = true then Destination.idle
      else causeDestination cause) = d
    have purged : P (purgeForLeaving (abandonOrders (enterLeaving cause d (withdrawNotice cause s)))) := by
      rw [abandonOrders_eq]
      exact purge _ _ (posted _ _ _ (offered _ _ _ (clear _ (entered d))))
    split
    · exact h.leave _ purged
    · exact offer_keeps h _ _ purged

/-- A withdrawal leaves what the station drives while it is LEAVING. -/
theorem drivesAs_withdraw (cause : Cause) (s : State) : DrivesAs s (withdraw cause s) :=
  withdraw_keeps (drivesAs_keptByLosses s) (drivesAs_purge s) (fun _ h => h) cause s (fun _ _ => ⟨rfl, rfl⟩) fun _ => ⟨rfl, rfl⟩

/-- A station that drives nothing drives nothing after a loss. -/
theorem silent_keptByLosses : KeptByLosses fun t => t.bus.drive = false where
  post _ _ h := h
  append _ _ h := h
  replace _ _ t h := (forgetAttempts_drive _ t.bus).2.trans h
  remove _ t h := (forgetAttempts_drive _ t.bus).2.trans h
  displace _ _ h := h
  unsent _ _ h := h
  abandon _ _ t h := (forgetAttempts_drive _ _).2.trans h
  leave t h := by
    unfold endLeaving
    split
    · exact h
    · split <;> [rfl; exact h]

theorem withdraw_silent (cause : Cause) {s : State} (h : s.bus.drive = false) : (withdraw cause s).bus.drive = false :=
  withdraw_keeps silent_keptByLosses (fun _ _ h => (forgetAttempts_drive _ _).2.trans h) (fun _ h => h) cause s (fun _ => h) h

/-- Settles O56. -/
theorem failedFramesAreSpoiledOrDiscarded : Obligations.FailedFramesAreSpoiledOrDiscarded := by
  intro s idle
  dsimp only
  have passiveStates : s.membership.state = .listen ∨ s.membership.state = .aligning ∨ s.membership.state = .leaving →
      activeState s.membership.state = false ∧ s.membership.state ≠ .idle := by
    rintro (h | h | h) <;> rw [h] <;> exact ⟨rfl, by decide⟩
  have activeRuns : activeState s.membership.state = true → s.membership.state ≠ .idle := fun active h => by
    rw [h] at active; cases active
  have can : s.membership.state ≠ .idle → (s.bus.spoiling = false ∧ (∀ r, s.bus.reading = some r → r.settled = false) ∧
      ∀ r, s.bus.reading = some r → checkRead r.slots = true → ownTest r.slots = false) → canFail s = true :=
    fun runs ⟨silent, unsettled, fails⟩ => (canFail_iff s).mpr ⟨runs, idle, silent, unsettled, fails⟩
  have edgeEnds : s.membership.state ≠ .idle ∧ s.profile.slotDivider ≤ s.bus.slotTimer + 1 ∧ (pinsNow s).rstn = .high →
      slotEnds s = true ∧ (tick s).bus = busAtEdge s := fun ⟨runs, ends, _⟩ =>
    have h := (slotEnds_iff s).mpr ⟨runs, ends⟩
    ⟨h, clockBus_edge s h⟩
  refine ⟨fun active failed unread => ?_, fun r active failed reading read => ⟨fun begins => ?_, fun later => ?_⟩,
    fun t taken run leaving => ?_, fun edge asked spoilSlot => ?_, fun edge asked spoilSlot => ?_, fun edge silent => ?_,
    fun passive failed unread => ?_, fun r passive failed reading read => ?_, fun passive failed spoilSlot => ?_,
    fun active => ?_, fun runs unsettled spoilSlot => ?_, fun h => ?_⟩
  · have unreadEq := frameEnds_unread unread
    have same : failFrame (frameEnds s) = countTally .check (frameEnds s) := by
      rw [unreadEq]; simp [failFrame]
    have done : (countTally .check (frameEnds s)).1.bus.reading = none := by rw [countTally_bus, unreadEq]
    refine congrArg Host.Outcome.next ((if_pos ?_).trans ((if_pos active).trans ?_))
    · rw [can (activeRuns active) failed, atSpoilSlot_of_unread unread]; rfl
    · rw [endsUnread_of_unread unread, same]
      exact if_pos done
  · refine congrArg Host.Outcome.next ((if_pos ?_).trans ((if_pos active).trans ?_))
    · rw [can (activeRuns active) failed, (atSpoilSlot_iff reading read).mpr begins]; rfl
    · rw [endsUnread_of_read reading read]
      have drives : failFrame s = countTally .check { s with bus := { s.bus with spoiling := true, drive := true } } := by
        simp [failFrame, reading]
      rw [drives]
      have reads : (countTally .check { s with bus := { s.bus with spoiling := true, drive := true } }).1.bus =
          { s.bus with spoiling := true, drive := true } := countTally_bus ..
      refine (if_neg ?_).trans ?_
      · rw [reads]; simp [reading]
      · rw [reads]
  · refine congrArg Host.Outcome.next (if_neg ?_)
    rw [Bool.and_eq_true, atSpoilSlot_iff reading read]
    exact fun ⟨_, begins⟩ => later begins
  · obtain ⟨idles, listens, withdraws, leaves⟩ := stopFollowsTheState s taken
    have answered := fun {u : State} (h : exec .stop s = .next u) => Host.Outcome.next.inj (run.symm.trans h)
    cases state : s.membership.state with
    | idle => rw [answered (idles state)] at leaving; cases state.symm.trans leaving
    | listen =>
      obtain ⟨u, ran, -, idle', -⟩ := listens (.inl state)
      rw [answered ran] at leaving; cases idle'.symm.trans leaving
    | aligning =>
      obtain ⟨u, ran, -, idle', -⟩ := listens (.inr state)
      rw [answered ran] at leaving; cases idle'.symm.trans leaving
    | forming => rw [answered (withdraws (.inl state))] at leaving ⊢; exact drivesAs_withdraw .stop s leaving
    | arriving => rw [answered (withdraws (.inr (.inl state)))] at leaving ⊢; exact drivesAs_withdraw .stop s leaving
    | member => rw [answered (withdraws (.inr (.inr state)))] at leaving ⊢; exact drivesAs_withdraw .stop s leaving
    | leaving => rw [answered (leaves state)]; exact ⟨rfl, rfl⟩
  · obtain ⟨ends, bus⟩ := edgeEnds edge
    have read := (spoilSlotRead_iff s).mpr spoilSlot
    rw [exec_carrierSample_asked edge.2.2 ends asked, read, bus, busAtEdge_withdrawAsked, read]
    exact ⟨rfl, by simp⟩
  · obtain ⟨ends, bus⟩ := edgeEnds edge
    have unread : spoilSlotRead s = false := by
      rw [← Bool.not_eq_true, spoilSlotRead_iff]; exact not_not.mpr spoilSlot
    rw [exec_carrierSample_asked edge.2.2 ends asked, unread, bus, busAtEdge_withdrawAsked, unread, asked]
    exact ⟨rfl, rfl⟩
  · obtain ⟨ends, bus⟩ := edgeEnds edge
    have quiet : (tick s).bus.drive = false := by
      rw [bus, busAtEdge_drive]
      cases reading : s.bus.reading with
      | none => simp [driveAtEdge, reading]
      | some r => rw [driveAtEdge_idle reading idle, silent]; rfl
    rcases execCarrierSample_cases s with ⟨low, -⟩ | ⟨-, run⟩ | ⟨-, -, run⟩
    · rw [edge.2.2] at low; cases low
    · exact ⟨_, run, quiet⟩
    · exact ⟨_, run, withdraw_silent .tally quiet⟩
  · obtain ⟨inactive, runs⟩ := passiveStates passive
    refine congrArg Host.Outcome.next ((if_pos ?_).trans ((if_neg (by simp [inactive])).trans (endsUnread_of_unread unread)))
    rw [can runs failed, atSpoilSlot_of_unread unread]; rfl
  · obtain ⟨inactive, runs⟩ := passiveStates passive
    refine congrArg Host.Outcome.next ((ite_congr rfl (fun _ => (if_neg (by simp [inactive])).trans
      (endsUnread_of_read reading read)) fun _ => rfl).trans (ite_self s))
  · obtain ⟨inactive, runs⟩ := passiveStates passive
    refine congrArg Host.Outcome.next ((if_pos ?_).trans ?_)
    · rw [can runs failed, inactive, spoilRead_slotsRead]
      simpa using spoilSlot
    · rfl
  · exact congrArg Host.Outcome.next (if_neg (by simp [active]))
  · refine congrArg Host.Outcome.next (if_pos ⟨runs, idle, (frameSettled_iff s).mpr unsettled, ?_⟩)
    rw [spoilRead_slotsRead]; exact spoilSlot
  · have closed : canFail s = false ∧ ¬ (s.membership.state ≠ .idle ∧ s.bus.sending = none ∧ frameSettled s = false ∧
        spoilRead (slotsRead s) ≠ some true) := by
      rcases h with h | ⟨r, reading, settled⟩
      · exact ⟨by simp [canFail, h], fun ⟨runs, _⟩ => runs h⟩
      · refine ⟨canFail_settled reading settled, fun ⟨_, _, unsettled, _⟩ => ?_⟩
        rw [(frameSettled_iff s).mp unsettled r reading] at settled; cases settled
    exact ⟨congrArg Host.Outcome.next (if_neg (by simp [closed.1])), congrArg Host.Outcome.next (if_neg (by simp [closed.1])),
      congrArg Host.Outcome.next (if_neg closed.2)⟩

end Sys2Proof.Machine
end
section
/-! Attempts that do not succeed: lost arbitration, spoiled attempts and what the producer does about them (R141 to R144, R157). -/

namespace Sys2Proof.Machine

/-- A removal of a frame takes its attempt count with it (R144). -/
theorem removeFrame_eq (ident : Nat) (s : State) : removeFrame ident s =
    if s.bus.attemptsFor = some ident then
      clearAttempts { s with queue := { s.queue with entries := s.queue.entries.filter fun e => e.ident != ident } }
    else { s with queue := { s.queue with entries := s.queue.entries.filter fun e => e.ident != ident } } := by
  unfold removeFrame forgetAttempts
  cases h : s.bus.attemptsFor with
  | none => simp
  | some x =>
    by_cases same : x = ident
    · simp [same, clearAttempts]
    · simp [same]

/-- A removal and a fresh attempt count give the same in either order. -/
theorem clearAttempts_removeFrame (ident : Nat) (s : State) : clearAttempts (removeFrame ident s) =
    clearAttempts { s with queue := { s.queue with entries := s.queue.entries.filter fun e => e.ident != ident } } := by
  rw [removeFrame_eq]; split <;> rfl

theorem postDropped_eq {s t : State} (profile : t.profile = s.profile) (how : FrameLoss) (p : Payload) :
    postDropped how p t = post (.frameDropped how (payloadKind p) (frameOrderId (ownNumber s) p)) t := by
  rw [postDropped, ownNumber, ownNumber, profile]

/-! ### A PROPOSE or COMMIT across its vote close -/

/-- The frame is the PROPOSE or the COMMIT that an open ballot waits for, and the vote close of the ballot has passed. -/
def AcrossClose (s : State) (p : Payload) (b : Ballot) : Prop :=
  ballotWithSeq s b.seq = some b ∧ voteClosed s b = true ∧
    ((b.state = .awaitingSend ∧ ∃ mask tone mode, p = .propose b.seq b.target mask tone mode) ∨
      (b.state = .committing ∧ p = .commit b.seq b.target))

theorem acrossClose_congr {s t : State} (orders : t.orders = s.orders) (timer : t.timer = s.timer)
    (profile : t.profile = s.profile) (p : Payload) (b : Ballot) : AcrossClose t p b ↔ AcrossClose s p b := by
  simp only [AcrossClose, ballotWithSeq, openBallots, voteClosed, orders, timer, profile]

/-- The two reports across the vote close, which differ in the reason for a COMMIT. -/
def reportAcross (ofCommit : AbortReason) (p : Payload) (s : State) : State :=
  match p with
  | .propose seq target .. =>
    match ballotWithSeq s seq with
    | some b =>
      if b.state = .awaitingSend ∧ b.target = target ∧ voteClosed s b then abortOwn b .unsent (ownNumber s) s else s
    | none => s
  | .commit seq target =>
    match ballotWithSeq s seq with
    | some b =>
      if b.state = .committing ∧ b.target = target ∧ voteClosed s b then abortOwn b ofCommit (ownNumber s) s else s
    | none => s
  | _ => s

theorem reportSpoiled_eq (p : Payload) (s : State) : reportSpoiled p s = reportAcross .commitLost p s := by
  cases p <;> rfl

theorem reportLostAcrossClose_eq (p : Payload) (s : State) : reportLostAcrossClose p s = reportAcross .timeout p s := by
  cases p <;> rfl

theorem reportAcross_of_across (ofCommit : AbortReason) {p : Payload} {s : State} {b : Ballot} (h : AcrossClose s p b) :
    reportAcross ofCommit p s = abortOwn b (if b.state = .committing then ofCommit else .unsent) (ownNumber s) s := by
  obtain ⟨found, closed, ⟨state, mask, tone, mode, rfl⟩ | ⟨state, rfl⟩⟩ := h
  · simp [reportAcross, found, state, closed]
  · simp [reportAcross, found, state, closed]

theorem reportAcross_of_none (ofCommit : AbortReason) {p : Payload} {s : State} (h : ∀ b, ¬ AcrossClose s p b) :
    reportAcross ofCommit p s = s := by
  unfold reportAcross
  split
  case h_1 seq target mask tone mode =>
    split
    case h_1 b found =>
      obtain ⟨-, rfl⟩ := ballotWithSeq_some found
      refine if_neg fun ⟨state, same, closed⟩ => h b ⟨found, closed, .inl ⟨state, mask, tone, mode, by rw [same]⟩⟩
    case h_2 => rfl
  case h_2 seq target =>
    split
    case h_1 b found =>
      obtain ⟨-, rfl⟩ := ballotWithSeq_some found
      refine if_neg fun ⟨state, same, closed⟩ => h b ⟨found, closed, .inr ⟨state, by rw [same]⟩⟩
    case h_2 => rfl
  case h_3 => rfl

/-! ### The outcome of a frame that has been taken -/

/-- The outcome of the frame being read has been taken, or the station has stopped. -/
def OutcomeTaken (s : State) : Prop :=
  (∃ r, s.bus.reading = some r ∧ r.settled = true) ∨ (s.membership.state = .idle ∧ s.membership.leaving = none)

theorem outcomeTaken_bus {s t : State} (membership : t.membership = s.membership) (reading : t.bus.reading = s.bus.reading)
    (h : OutcomeTaken s) : OutcomeTaken t := by
  rw [OutcomeTaken, membership, reading]; exact h

theorem forgetAttempts_reading (gone : Nat → Bool) (b : BusInterface) : (forgetAttempts gone b).reading = b.reading := by
  unfold forgetAttempts; split <;> rfl

theorem outcomeTaken_keptByLosses : KeptByLosses OutcomeTaken where
  post _ _ h := h
  append _ _ h := h
  replace _ _ t h := outcomeTaken_bus (s := t) rfl (forgetAttempts_reading _ t.bus) h
  remove _ t h := outcomeTaken_bus (s := t) rfl (forgetAttempts_reading _ t.bus) h
  displace _ _ h := h
  unsent _ _ h := h
  abandon _ _ t h := outcomeTaken_bus (s := t) rfl (forgetAttempts_reading _ _) h
  leave t h := by
    unfold endLeaving
    split
    case h_1 => exact h
    case h_2 l remembered =>
      split
      · exact .inr ⟨rfl, rfl⟩
      · refine .inl (h.resolve_right fun ⟨_, forgotten⟩ => ?_)
        rw [forgotten] at remembered; cases remembered

theorem outcomeTaken_withdraw (cause : Cause) (s : State) (h : OutcomeTaken s) : OutcomeTaken (withdraw cause s) := by
  rcases h with read | ⟨idle, none⟩
  · exact withdraw_keeps outcomeTaken_keptByLosses (fun _ t ht => outcomeTaken_bus (s := t) rfl (forgetAttempts_reading _ _) ht)
      (fun _ ht => ht) cause s (fun _ => .inl read) (.inl read)
  · have stays : withdraw cause s = s := if_neg (by rw [idle]; decide)
    rw [stays]; exact .inr ⟨idle, none⟩

theorem outcomeTaken_withdrawIf (asked : Bool) (s : State) (h : OutcomeTaken s) : OutcomeTaken (withdrawIf asked s) := by
  unfold withdrawIf; split
  · exact outcomeTaken_withdraw _ s h
  · exact h

theorem outcomeTaken_removeFrame (ident : Nat) (s : State) (h : OutcomeTaken s) : OutcomeTaken (removeFrame ident s) :=
  outcomeTaken_bus (s := s) rfl (forgetAttempts_reading _ _) h

theorem outcomeTaken_reportSpoiled (p : Payload) (s : State) (h : OutcomeTaken s) : OutcomeTaken (reportSpoiled p s) := by
  rw [reportSpoiled_eq]
  by_cases closes : ∃ b, AcrossClose s p b
  · obtain ⟨b, closes⟩ := closes
    rw [reportAcross_of_across _ closes]
    exact abortOwn_keeps outcomeTaken_keptByLosses _ _ _ _ h
  · rw [reportAcross_of_none _ fun b hb => closes ⟨b, hb⟩]; exact h

theorem outcomeTaken_spoilAttempt (a : Sending) (s : State) (h : OutcomeTaken s) : OutcomeTaken (spoilAttempt a s) := by
  have counted : OutcomeTaken (countTally .spoil (attemptOver s)).1 := by
    refine outcomeTaken_bus (s := s) ?_ ?_ h
    · rw [countTally_membership]; rfl
    · rw [countTally_bus]; rfl
  unfold spoilAttempt
  dsimp only
  split
  · exact outcomeTaken_withdrawIf _ _ (loseFrame_keeps outcomeTaken_keptByLosses _ _ counted)
  · split
    · refine outcomeTaken_withdrawIf _ _ ?_
      have reported := outcomeTaken_reportSpoiled a.payload { (countTally .spoil (attemptOver s)).1 with bus :=
        { (countTally .spoil (attemptOver s)).1.bus with attempts := s.bus.attempts + 1 } } counted
      unfold removeIf; split
      · exact outcomeTaken_removeFrame _ _ reported
      · exact reported
    · refine outcomeTaken_withdrawIf _ _ (loseFrame_keeps outcomeTaken_keptByLosses _ _ ?_)
      exact outcomeTaken_bus (s := removeFrame a.ident (postDropped .spoiled a.payload
        (countTally .drop (countTally .spoil (attemptOver s)).1).1)) rfl rfl (outcomeTaken_removeFrame _ _
        (outcomeTaken_bus (countTally_membership ..) (congrArg BusInterface.reading (countTally_bus ..)) counted))

/-- A frame whose outcome has been taken is not accepted, does not fail and makes no receive error. -/
theorem exec_of_outcomeTaken {s : State} (h : OutcomeTaken s) : exec .frameFailed s = .next s ∧ exec .receiveError s = .next s ∧
    ∀ {c : Instr} {n : StationNo} {p : Payload}, c.acceptedFrame = some (n, p) → exec c s = .next s := by
  have closed : canFail s = false ∧ ∀ n p, canAccept s n p = false := by
    rcases h with ⟨r, reading, settled⟩ | ⟨idle, -⟩
    · exact ⟨canFail_settled reading settled, fun n p => canAccept_settled reading settled n p⟩
    · exact ⟨by simp [canFail, idle], fun n p => by simp [canAccept, idle]⟩
  refine ⟨congrArg Host.Outcome.next (if_neg (by simp [closed.1])), congrArg Host.Outcome.next (if_neg (by simp [closed.1])), ?_⟩
  intro c n p hc
  rw [exec_accepted hc, accepted, if_neg (by simp [closed.2 n p])]

theorem outcomeTaken_frameEnds {s : State} {r : Reading} (reading : s.bus.reading = some r) (read : checkRead r.slots = true) :
    OutcomeTaken (frameEnds s) := by
  refine .inl ⟨{ r with settled := true }, ?_, rfl⟩
  simp [frameEnds, reading, read]

/-! ### The commands -/

theorem exec_arbitrationLost {a : Sending} {s : State} (sending : s.bus.sending = some a) (agrees : a.mismatch = false)
    (heard : heardBack s a = none ∨ heardBack s a = some .lost) : exec .arbitrationLost s = .next
      (if a.displaced = true then loseFrame a.payload (postDropped .displaced a.payload (attemptOver s))
        else removeIf a.removeAfter a.ident (reportLostAcrossClose a.payload (attemptOver s))) := by
  have lost : (heardBack s a).getD .lost = .lost := by rcases heard with h | h <;> rw [h] <;> rfl
  simp [exec, execArbitrationLost, sending, agrees, lost]

theorem exec_attemptSpoiled {a : Sending} {s : State} (sending : s.bus.sending = some a)
    (spoiled : a.mismatch = true ∨ spoilRead (slotsRead s) ≠ some true) :
    exec .attemptSpoiled s = .next (spoilAttempt a (frameEnds s)) := by
  simp [exec, execAttemptSpoiled, sending, spoiled]

/-- Settles O58. -/
theorem unsuccessfulAttemptsAreCounted : Obligations.UnsuccessfulAttemptsAreCounted := by
  intro a s sending ended withdrawn lost removed forgotten kept across aborted spoiledFrom
  have keptEq : ∀ u, removeIf a.removeAfter a.ident u = kept u := fun u =>
    ite_congr rfl (fun _ => removeFrame_eq a.ident u) fun _ => rfl
  have acrossIff : ∀ (u : State), u.orders = s.orders → u.timer = s.timer → u.profile = s.profile → ∀ b,
      AcrossClose u a.payload b ↔ across b := fun u orders timer profile b => acrossClose_congr orders timer profile a.payload b
  have spoiled : ∀ b : BusInterface, b.attempts = s.bus.attempts →
      spoiledFrom { s with bus := b } (.next (spoilAttempt a { s with bus := b })) := by
    intro bus attempts
    have profile : (countTally .spoil (ended { s with bus := bus })).1.profile = s.profile := by rw [countTally_profile]
    have few : s.bus.attempts < 7 → ({ s with bus := bus } : State).bus.attempts + 1 < Config.maxAttempts := fun few => by
      rw [show ({ s with bus := bus } : State).bus.attempts = s.bus.attempts from attempts]
      exact Nat.succ_lt_succ few
    have early : a.displaced = false → s.bus.attempts < 7 → spoilAttempt a { s with bus := bus } =
        withdrawn (countTally .spoil (ended { s with bus := bus })).2 (kept (reportAcross .commitLost a.payload
          { (countTally .spoil (ended { s with bus := bus })).1 with bus :=
            { (countTally .spoil (ended { s with bus := bus })).1.bus with attempts := s.bus.attempts + 1 } })) := by
      intro stays fewer
      rw [← keptEq, ← reportSpoiled_eq, ← attempts]
      exact (if_neg (by simp [stays])).trans (if_pos (few fewer))
    have same := acrossIff { (countTally .spoil (ended { s with bus := bus })).1 with bus :=
      { (countTally .spoil (ended { s with bus := bus })).1.bus with attempts := s.bus.attempts + 1 } }
      (by rw [countTally_orders]) (by rw [countTally_timer]) profile
    refine ⟨fun displaced => ?_, fun stays fewer clear => ?_, fun stays fewer b crosses => ?_, fun stays eighth => ?_⟩
    · refine congrArg Host.Outcome.next ((if_pos displaced).trans ?_)
      exact congrArg (fun u => withdrawIf _ (loseFrame a.payload u)) (postDropped_eq (s := s)
        (t := forgotten (countTally .spoil (ended { s with bus := bus })).1) profile .displaced a.payload)
    · rw [early stays fewer, reportAcross_of_none _ fun b hb => clear b ((same b).mp hb)]
    · rw [early stays fewer, reportAcross_of_across _ ((same b).mpr crosses)]
      exact congrArg (fun n => Host.Outcome.next (withdrawn _ (kept (abortOwn b _ n _)))) (congrArg Profile.station profile)
    · refine congrArg Host.Outcome.next ((if_neg (by simp [stays])).trans ((if_neg ?_).trans ?_))
      · rw [show ({ s with bus := bus } : State).bus.attempts = s.bus.attempts from attempts]
        exact fun fewer => absurd eighth (Nat.not_le.mpr (Nat.lt_of_succ_lt_succ fewer))
      · refine congrArg (fun u => withdrawIf _ (loseFrame a.payload u)) ((clearAttempts_removeFrame _ _).trans ?_)
        exact congrArg (fun u => forgotten (removed u)) (postDropped_eq (s := s) ((countTally_profile ..).trans profile) _ _)
  refine ⟨fun agrees heard => ⟨fun displaced => ?_, fun stays clear => ?_, fun stays b crosses => ?_⟩, fun agrees heard => ?_,
    fun spoils => ?_, fun mismatch => ?_, fun c n p r hc reading read spoils => ?_, fun unread => ?_, fun r reading start => ?_⟩
  · rw [exec_arbitrationLost sending agrees heard, if_pos displaced]
    rfl
  · rw [exec_arbitrationLost sending agrees heard, if_neg (by simp [stays]), keptEq, reportLostAcrossClose_eq,
      reportAcross_of_none _ fun b hb => clear b ((acrossIff (attemptOver s) rfl rfl rfl b).mp hb)]
    rfl
  · rw [exec_arbitrationLost sending agrees heard, if_neg (by simp [stays]), keptEq, reportLostAcrossClose_eq,
      reportAcross_of_across _ ((acrossIff (attemptOver s) rfl rfl rfl b).mpr crosses)]
    rfl
  · have mismatches : (heardBack s a).getD .mismatch = .mismatch := by rcases heard with h | h <;> rw [h] <;> rfl
    simp [exec, execBitMonitorMismatch, sending, agrees, mismatches]
  · rw [exec_attemptSpoiled sending spoils, frameEnds_eq]
    exact spoiled _ (frameEnds_attempts s)
  · have run : exec .frameTransmitted s = .next (spoilAttempt a (frameEnds s)) := by
      simp [exec, execFrameTransmitted, sending, mismatch]
    rw [run, frameEnds_eq]
    exact spoiled _ (frameEnds_attempts s)
  · have ends : a.mismatch = true ∨ spoilRead (slotsRead s) ≠ some true := by rwa [slotsRead_some reading]
    obtain ⟨failed, error, accepts⟩ := exec_of_outcomeTaken
      (outcomeTaken_spoilAttempt a _ (outcomeTaken_frameEnds reading read))
    exact ⟨_, exec_attemptSpoiled sending ends, accepts hc, failed, error⟩
  · have run : exec (.bitMonitorMismatch true) s = .next (spoilAttempt a s) := by
      simp [exec, execBitMonitorMismatch, sending, slotsRead_none unread, unread]
    rw [run]
    exact spoiled s.bus rfl
  · have run : exec (.bitMonitorMismatch true) s = .next (spoilAttempt a { s with bus :=
        { s.bus with reading := none, idleCount := min (s.bus.idleCount + 1) 6 } }) := by
      simp [exec, execBitMonitorMismatch, sending, slotsRead_some reading, start, reading, Config.idleSlots]
    rw [run]
    exact spoiled _ rfl

end Sys2Proof.Machine
end
section
/-! FRAME_TRANSMITTED: what the producer of a frame does when its frame has been sent (R8, R11, R12, R25, R117). -/

namespace Sys2Proof.Machine

/-- The producer acts by the kind of the frame sent (R157). -/
def producerActs : Payload → State → State
  | .propose seq target .. => proposeTransmitted seq target
  | .commit seq target => commitTransmitted seq target
  | .leave _ => endLeaving
  | _ => id

/-- The frame sent has left the queue, its attempt is over and the quiet count of a MEMBER is 0. -/
def frameGone (a : Sending) (s : State) : State :=
  { frameEnds s with
    bus := { (frameEnds s).bus with
      sending := none, drive := false, spoiling := false, attempts := 0, attemptsFor := none }
    queue := { s.queue with entries := s.queue.entries.filter fun e => e.ident != a.ident }
    membership := { s.membership with quiet := if s.membership.state = .member then 0 else s.membership.quiet } }

theorem transmitted_eq (a : Sending) (s : State) : transmitted a (frameEnds s) = producerActs a.payload (frameGone a s) := by
  have told : (if (removeFrame a.ident (clearAttempts (attemptOver (frameEnds s)))).membership.state = .member then
      { removeFrame a.ident (clearAttempts (attemptOver (frameEnds s))) with membership :=
        { (removeFrame a.ident (clearAttempts (attemptOver (frameEnds s)))).membership with quiet := 0 } }
      else removeFrame a.ident (clearAttempts (attemptOver (frameEnds s)))) = frameGone a s := by
    rw [frameGone, frameEnds_eq]
    by_cases member : s.membership.state = .member
    · refine (if_pos member).trans ?_
      rw [if_pos member]; rfl
    · refine (if_neg member).trans ?_
      rw [if_neg member]; rfl
  rw [← told]
  unfold transmitted
  cases a.payload <;> rfl

theorem exec_frameTransmitted {a : Sending} {s : State} (sending : s.bus.sending = some a) (agrees : a.mismatch = false)
    (heard : heardBack s a = none ∨ heardBack s a = some .agrees) (recessive : spoilRead (slotsRead s) ≠ some false) :
    exec .frameTransmitted s = .next (producerActs a.payload (frameGone a s)) := by
  have agreed : (heardBack s a).getD .agrees = .agrees := by rcases heard with h | h <;> rw [h] <;> rfl
  rw [← transmitted_eq]
  simp [exec, execFrameTransmitted, sending, agrees, agreed, recessive]

theorem producerActs_other {p : Payload} (h : payloadKind p ∉ [FrameKind.propose, .commit, .leave]) (s : State) :
    producerActs p s = s := by
  cases p <;> simp [payloadKind] at h <;> rfl

/-! ### A COMMIT and a PROPOSE that have been sent -/

theorem commitTransmitted_own {s : State} {seq : Seq} {target : Epoch} {b : Ballot} (found : ballotWithSeq s seq = some b)
    (state : b.state = .committing) (same : b.target = target) : commitTransmitted seq target s =
      if vetoPointPassed s target = true then freeBallot seq s
      else post (.orderCommitted (ownId s seq) target)
        (freeBallot seq (updateOrder (ownId s seq) (fun o => { o with state := .ready }) s)) := by
  simp [commitTransmitted, found, state, same]

theorem commitTransmitted_gone {s : State} {seq : Seq} {target : Epoch}
    (h : ∀ b, ballotWithSeq s seq = some b → b.state ≠ .committing ∨ b.target ≠ target) : commitTransmitted seq target s = s := by
  unfold commitTransmitted
  split
  case h_1 => rfl
  case h_2 b found => exact if_neg fun ⟨state, same⟩ => (h b found).elim (· state) (· same)

/-- The electorate taken at the transmission of a PROPOSE: the MEMBER entries of the Roster (R8). -/
def memberSet (s : State) : StationSet := setWhere fun n => (rosterEntry s n).presence == .member

theorem inSet_memberSet (s : State) (n : StationNo) : inSet (memberSet s) n = decide ((rosterEntry s n).presence = .member) := by
  rw [memberSet, inSet_setWhere]; rfl

/-- The ballot of an own order takes its electorate and collects votes (R8). -/
def collect (seq : Seq) (s : State) : State :=
  updateBallot seq (fun x => { x with state := .collecting, accepted := 0, electorate := memberSet s }) s

theorem openBallots_collect (seq : Seq) (s : State) : openBallots (collect seq s) = (openBallots s).map fun x =>
    if x.seq = seq then { x with state := .collecting, accepted := 0, electorate := memberSet s } else x := by
  rw [collect, openBallots_updateBallot]; simp only [beq_iff_eq]

theorem proposeTransmitted_own {s : State} {seq : Seq} {target : Epoch} {b : Ballot} (found : ballotWithSeq s seq = some b)
    (state : b.state = .awaitingSend) (same : b.target = target) : proposeTransmitted seq target s =
      if voteClosed s b = true then abortOwn b .timeout (ownNumber s) s else checkBallot seq (collect seq s) := by
  simp [proposeTransmitted, found, state, same, collect, memberSet]

theorem proposeTransmitted_gone {s : State} {seq : Seq} {target : Epoch}
    (h : ∀ b, ballotWithSeq s seq = some b → b.state ≠ .awaitingSend ∨ b.target ≠ target) :
    proposeTransmitted seq target s = s := by
  unfold proposeTransmitted
  split
  case h_1 => rfl
  case h_2 b found => exact if_neg fun ⟨state, same⟩ => (h b found).elim (· state) (· same)

/-- With an elector the ballot stays COLLECTING; without one it is complete at once (R8, R10). -/
theorem checkBallot_collect {s : State} {seq : Seq} {b : Ballot} (found : ballotWithSeq s seq = some b) :
    checkBallot seq (collect seq s) = if ∃ n, (rosterEntry s n).presence = .member then collect seq s
      else offer (.commit seq b.target) (updateBallot seq (fun x => { x with state := .committing }) (collect seq s)) := by
  have collecting := ballotWithSeq_updateBallot
    (f := fun x => { x with state := .collecting, accepted := 0, electorate := memberSet s }) found fun _ => rfl
  rw [collect, checkBallot_collecting collecting rfl]
  have complete : subset (memberSet s) 0 = true ↔ ¬ ∃ n, (rosterEntry s n).presence = .member := by
    rw [subset_iff]
    simp only [inSet_memberSet, inSet_zero, decide_eq_true_eq, Bool.false_eq_true, imp_false, not_exists]
  by_cases elector : ∃ n, (rosterEntry s n).presence = .member
  · rw [if_pos elector]; exact if_neg fun h => complete.mp h elector
  · rw [if_neg elector]; exact if_pos (complete.mpr elector)

/-! ### The frame itself is received by no block -/

theorem outcomeTaken_proposeTransmitted (seq : Seq) (target : Epoch) (s : State) (h : OutcomeTaken s) :
    OutcomeTaken (proposeTransmitted seq target s) := by
  unfold proposeTransmitted
  split
  case h_1 => exact h
  case h_2 =>
    split
    case isFalse => exact h
    case isTrue =>
      split
      · exact abortOwn_keeps outcomeTaken_keptByLosses _ _ _ _ h
      · exact checkBallot_keeps outcomeTaken_keptByLosses (fun _ _ h => h) _ _ h

theorem outcomeTaken_commitTransmitted (seq : Seq) (target : Epoch) (s : State) (h : OutcomeTaken s) :
    OutcomeTaken (commitTransmitted seq target s) := by
  unfold commitTransmitted
  split
  case h_1 => exact h
  case h_2 =>
    split
    case isFalse => exact h
    case isTrue => split <;> exact h

theorem outcomeTaken_producerActs (p : Payload) (s : State) (h : OutcomeTaken s) : OutcomeTaken (producerActs p s) := by
  cases p with
  | propose => exact outcomeTaken_proposeTransmitted _ _ _ h
  | commit => exact outcomeTaken_commitTransmitted _ _ _ h
  | leave => exact outcomeTaken_keptByLosses.leave _ h
  | abort => exact h
  | vote => exact h
  | epoch => exact h
  | hello => exact h

/-- Settles O59. -/
theorem transmittedFramesActAtTheProducer : Obligations.TransmittedFramesActAtTheProducer := by
  intro a s sending agrees heard recessive
  have run := exec_frameTransmitted sending agrees heard recessive
  have taken (r : Reading) (reading : s.bus.reading = some r) (read : checkRead r.slots = true) : OutcomeTaken (frameGone a s) :=
    .inl ⟨{ r with settled := true }, by simp [frameGone, frameEnds, reading, read], rfl⟩
  obtain ⟨bus, base, -⟩ := exists_frameEnds s
  rw [frameGone, base] at run taken
  rw [base]
  intro gone sent
  replace run : sent = .next (producerActs a.payload gone) := run
  have own : ∀ seq, ownId gone seq = ownId s seq := fun _ => rfl
  refine ⟨fun other => ?_, fun c n p r hc reading read => ?_, fun seq target b payload held state same => ⟨fun early => ?_, fun late => ?_⟩,
    fun seq target mask tone mode b payload held state same early elector => ?_,
    fun seq target mask tone mode b payload held state same early nobody room => ?_,
    fun seq target mask tone mode b payload held state same late => ?_, fun seq target mask tone mode payload unheld => ?_,
    fun seq target payload unheld => ?_, fun reason l payload remembered => ?_⟩
  · rw [run, producerActs_other other]
  · obtain ⟨failed, error, accepts⟩ := exec_of_outcomeTaken (outcomeTaken_producerActs a.payload gone (taken r reading read))
    exact ⟨_, run, accepts hc, failed, error⟩
  · have early' : ¬ vetoPointPassed gone target = true := ne_true_of_eq_false early
    rw [payload, producerActs, commitTransmitted_own (s := gone) held state same, if_neg early'] at run
    refine ⟨_, run, ?_, openBallots_freeBallot seq gone, rfl, rfl, rfl, rfl⟩
    exact (liveOrders_updateOrder ..).trans (by simp only [beq_iff_eq]; rfl)
  · have late' : vetoPointPassed gone target = true := late
    rw [payload, producerActs, commitTransmitted_own (s := gone) held state same, if_pos late'] at run
    exact ⟨_, run, rfl, openBallots_freeBallot seq gone, rfl, rfl, rfl, rfl⟩
  · have early' : ¬ voteClosed gone b = true := ne_true_of_eq_false early
    have elector' : ∃ n, (rosterEntry gone n).presence = .member := elector
    rw [payload, producerActs, proposeTransmitted_own (s := gone) held state same, if_neg early',
      checkBallot_collect (s := gone) held, if_pos elector'] at run
    refine ⟨_, run, rfl, ⟨memberSet gone, inSet_memberSet gone, openBallots_collect seq gone⟩, ?_, rfl, rfl, rfl, rfl⟩
    rw [openBallots_collect]
    exact ⟨_, List.mem_map_of_mem (ballotWithSeq_some held).1, by simp [(ballotWithSeq_some held).2]⟩
  · have early' : ¬ voteClosed gone b = true := ne_true_of_eq_false early
    have nobody' : ¬ ∃ n, (rosterEntry gone n).presence = .member := fun ⟨n, h⟩ => nobody n h
    have complete : openBallots (updateBallot seq (fun x => { x with state := .committing }) (collect seq gone)) =
        (openBallots s).map fun x => if x.seq = seq then { x with state := .committing, accepted := 0, electorate := 0 } else x := by
      have electorate : memberSet gone = 0 := stationSet_ext fun n => by
        rw [inSet_memberSet, inSet_zero]; exact decide_eq_false (nobody n)
      rw [openBallots_updateBallot, openBallots_collect, List.map_map, electorate]
      refine List.map_congr_left fun x _ => ?_
      by_cases mine : x.seq = seq <;> simp [mine]
    rw [payload, producerActs, proposeTransmitted_own (s := gone) held state same, if_neg early',
      checkBallot_collect (s := gone) held, if_neg nobody',
      offer_room (.commit seq b.target) (updateBallot _ _ (collect seq gone)) (fun e _ => rfl) room] at run
    refine ⟨_, run, rfl, complete, ?_, rfl, rfl, rfl, rfl⟩
    refine (congrArg (fun l => ∃ x ∈ l, x.seq = seq) complete).mpr ?_
    exact ⟨_, List.mem_map_of_mem (ballotWithSeq_some held).1, by simp [(ballotWithSeq_some held).2]⟩
  · have late' : voteClosed gone b = true := late
    rw [run, payload, producerActs, proposeTransmitted_own (s := gone) held state same, if_pos late']
    rfl
  · rw [run, payload, producerActs, proposeTransmitted_gone (s := gone) unheld]
  · rw [run, payload, producerActs, commitTransmitted_gone (s := gone) unheld]
  · rw [payload, producerActs] at run
    refine ⟨_, run, ?_⟩
    have remembered' : gone.membership.leaving = some l := remembered
    simp only [endLeaving, remembered']
    cases l.destination <;> exact ⟨rfl, rfl, rfl, rfl, rfl, rfl⟩

end Sys2Proof.Machine
end
section
/-! VETO_SAMPLE: the decision on the next order, and the mark reading that waits (R38 to R40, R45, R46, R55 to R59). -/

namespace Sys2Proof.Machine

/-- The veto sample has been taken. -/
def sampled (g : Grid) (s : State) : State := atPoint g (samplePhase s.profile) s

theorem exec_vetoSample_fault {s : State} {g : Grid} (hg : s.timer.grid = some g)
    (reached : pointReached g (samplePhase s.profile) = true) (claim : s.timer.claims.veto = true) :
    exec (.vetoSample .high) s = .next (withdraw .holdFault { sampled g s with
      timer := { (sampled g s).timer with provisional := none } }) := by
  have same : ∀ o, decideOrder .high o (sampled g s) = sampled g s := fun o => if_pos claim
  simp only [exec, execVetoSample, hg, reached, claim, if_true]
  cases orderWithTarget (atPoint g (samplePhase s.profile) s) (g.counter + 1) with
  | none => rfl
  | some o => exact congrArg (fun u : State => Host.Outcome.next (withdraw .holdFault
      { u with timer := { u.timer with provisional := none } })) (same o)

/-- An order that is due is decided before the mark reading is settled. -/
theorem exec_vetoSample_due {s : State} {g : Grid} {o : Order} {ch : Level} (hg : s.timer.grid = some g)
    (reached : pointReached g (samplePhase s.profile) = true) (due : orderWithTarget s (g.counter + 1) = some o)
    (fair : ch = .low ∨ s.timer.claims.veto = false) :
    exec (.vetoSample ch) s = .next (settleReading false (decideOrder ch o (sampled g s))) := by
  have due' : orderWithTarget (atPoint g (samplePhase s.profile) s) (g.counter + 1) = some o := due
  have honest : (s.timer.claims.veto && ch == .high) = false := by rcases fair with rfl | h <;> simp [*]
  simp only [exec, execVetoSample, hg, reached, due', honest, if_true, Bool.false_eq_true, if_false, Option.isNone_some,
    Bool.false_and]
  rfl

theorem exec_vetoSample_clear {s : State} {g : Grid} {ch : Level} (hg : s.timer.grid = some g)
    (reached : pointReached g (samplePhase s.profile) = true) (clear : orderWithTarget s (g.counter + 1) = none)
    (fair : (ch = .high ∧ s.timer.claims.veto = false) ∨ (ch = .low ∧ s.timer.claims.veto = true)) :
    exec (.vetoSample ch) s = .next (settleReading false (sampled g s)) := by
  have clear' : orderWithTarget (atPoint g (samplePhase s.profile) s) (g.counter + 1) = none := clear
  rcases fair with ⟨rfl, claim⟩ | ⟨rfl, claim⟩ <;>
    simp only [exec, execVetoSample, hg, reached, clear', claim, if_true] <;> rfl

/-- A low line with neither order nor claim is a stray hold (R39). -/
theorem exec_vetoSample_stray {s : State} {g : Grid} (hg : s.timer.grid = some g)
    (reached : pointReached g (samplePhase s.profile) = true) (clear : orderWithTarget s (g.counter + 1) = none)
    (claim : s.timer.claims.veto = false) : exec (.vetoSample .low) s =
      .next (withdrawIf (countTally .stray (sampled g s)).2 (settleReading true (countTally .stray (sampled g s)).1)) := by
  have clear' : orderWithTarget (atPoint g (samplePhase s.profile) s) (g.counter + 1) = none := clear
  simp only [exec, execVetoSample, hg, reached, clear', claim, if_true]
  rfl

/-! ### The mark reading -/

theorem settleReading_none {s : State} (h : s.timer.provisional = none) (stray : Bool) : settleReading stray s = s := by
  simp [settleReading, h]

theorem settleReading_some {s : State} {r : Provisional} (h : s.timer.provisional = some r) (mark : r.mark = nowEpoch s)
    (stray : Bool) : settleReading stray s =
      if stray = true then { s with timer := { s.timer with provisional := none } } else keepReading r s := by
  simp only [settleReading, h, mark, if_true]

/-- The state with the reading kept as its last one. -/
def readingKept (r : Provisional) (s : State) : State :=
  { s with timer := { s.timer with
    provisional := none, lastReading := some ⟨r.mark, r.lead, r.lag.getD (eighth s.profile)⟩ } }

/-- The skew check of a kept reading (R46). -/
def skewChecked (r : Provisional) (s : State) : State :=
  if s.profile.skewWindow < r.lead + r.lag.getD (eighth s.profile) then
    withdrawIf (countTally .skew (readingKept r s)).2
      (post (.skewWide r.lead (r.lag.getD (eighth s.profile))) (countTally .skew (readingKept r s)).1)
  else readingKept r s

theorem keepReading_eq (r : Provisional) (s : State) : keepReading r s =
    if (skewChecked r s).membership.state = .arriving then becomeMember r.lead (skewChecked r s) else skewChecked r s := rfl

/-! ### What a withdrawal does not do -/

/-- A withdrawal never makes a station ARRIVING. -/
theorem withdraw_notArriving (cause : Cause) {s : State} (h : s.membership.state ≠ .arriving) :
    (withdraw cause s).membership.state ≠ .arriving := by
  have kept : KeptByLosses fun t => t.membership.state ≠ .arriving :=
    { post := fun _ _ h => h
      append := fun _ _ h => h
      replace := fun _ _ _ h => h
      remove := fun _ _ h => h
      displace := fun _ _ h => h
      unsent := fun _ _ h => h
      abandon := fun _ _ _ h => h
      leave := fun t h => by
        unfold endLeaving
        split
        · exact h
        · split <;> simp [enterIdle, enterListen, membershipCleared] }
  exact withdraw_keeps kept (fun _ _ h => h) (fun _ h => h) cause s (fun _ => StationState.noConfusion) h

theorem withdrawIf_notArriving (asked : Bool) {s : State} (h : s.membership.state ≠ .arriving) :
    (withdrawIf asked s).membership.state ≠ .arriving := by
  unfold withdrawIf; split
  · exact withdraw_notArriving _ h
  · exact h

/-- At a MEMBER a kept reading is followed by its skew check alone. -/
theorem keepReading_member (r : Provisional) {s : State} (member : s.membership.state = .member) :
    keepReading r s = skewChecked r s := by
  have state : s.membership.state ≠ .arriving := by rw [member]; decide
  rw [keepReading_eq]
  refine if_neg ?_
  unfold skewChecked
  split
  · exact withdrawIf_notArriving _ (by rw [post_membership, countTally_membership]; exact state)
  · exact state

/-- Every notice queued stays queued over losses. -/
theorem post_notices_isPrefix (r : Report) (s : State) : s.monitor.notices <+: (post r s).monitor.notices := by
  show _ <+: (postNotice _ _ _).notices
  rcases postNotice_cases s.profile.noticeMask ⟨r, s.timer.grid.map (·.counter)⟩ s.monitor with same | ⟨-, queued⟩ | full
  · rw [same]
  · rw [queued]; exact List.prefix_append ..
  · rw [full]

theorem noticesFrom_keptByLosses (l : List Notice) : KeptByLosses fun t => l <+: t.monitor.notices where
  post r t h := h.trans (post_notices_isPrefix r t)
  append _ _ h := h
  replace _ _ _ h := h
  remove _ _ h := h
  displace _ _ h := h
  unsent _ _ h := h
  abandon _ _ _ h := h
  leave t h := by
    unfold endLeaving
    split
    · exact h
    · split <;> exact h

theorem withdraw_notices (cause : Cause) (s : State) : s.monitor.notices <+: (withdraw cause s).monitor.notices :=
  withdraw_keeps (noticesFrom_keptByLosses s.monitor.notices) (fun _ _ h => h) (fun _ h => h) cause s
    (fun _ => post_notices_isPrefix _ { s with membership :=
      { s.membership with withdrawals := countedWithdrawals cause s.membership.withdrawals } }) (List.prefix_refl _)

theorem withdrawIf_notices (asked : Bool) (s : State) : s.monitor.notices <+: (withdrawIf asked s).monitor.notices := by
  unfold withdrawIf; split
  · exact withdraw_notices _ s
  · exact List.prefix_refl _

theorem countTally_notices (k : TallyKind) (s : State) : s.monitor.notices <+: (countTally k s).1.monitor.notices := by
  unfold countTally
  dsimp only
  split
  · split
    · exact post_notices_isPrefix (.tallyLimit k s.profile.threshold)
        { s with monitor := { s.monitor with tallies := setTally k (tallyOf k s.monitor.tallies + 1) s.monitor.tallies } }
    · exact List.prefix_refl _
  · exact List.prefix_refl _

theorem skewChecked_notices (r : Provisional) (s : State) : s.monitor.notices <+: (skewChecked r s).monitor.notices := by
  unfold skewChecked
  split
  · exact (countTally_notices .skew (readingKept r s)).trans ((post_notices_isPrefix _ _).trans (withdrawIf_notices _ _))
  · exact List.prefix_refl _

/-- A tally reads no item of the timer but the counter. -/
theorem countTally_withTimer (k : TallyKind) (s : State) (t : EpochTimer) (grid : t.grid = s.timer.grid) :
    countTally k { s with timer := t } = ({ (countTally k s).1 with timer := t }, (countTally k s).2) := by
  unfold countTally
  dsimp only
  split
  · split
    · simp [post, grid]
    · rfl
  · rfl

/-- Settles O41. -/
theorem vetoSampleDecidesTheNextOrder : Obligations.VetoSampleDecidesTheNextOrder := by
  intro s g hg phase point distinct there settled
  have reached : pointReached g (samplePhase s.profile) = true := (pointReached_iff ..).mpr ⟨point, phase⟩
  have due {o : Order} (live : o ∈ liveOrders s) (target : o.target = g.counter + 1) :
      orderWithTarget s (g.counter + 1) = some o := target ▸ orderWithTarget_eq distinct live
  have clear (h : ∀ o ∈ liveOrders s, o.target ≠ g.counter + 1) : orderWithTarget s (g.counter + 1) = none :=
    orderWithTarget_none.mpr h
  have vetoed (o : Order) (claimed : Bool) : (vetoOrder o claimed there).monitor =
      postNotice s.profile.noticeMask ⟨.orderVetoed o.id claimed, some g.counter⟩ s.monitor := by
    show postNotice (retireOrder o.id there).profile.noticeMask
      ⟨.orderVetoed o.id claimed, (retireOrder o.id there).timer.grid.map (·.counter)⟩ (retireOrder o.id there).monitor = _
    rw [retireOrder_profile, retireOrder_timer, retireOrder_monitor]
    rfl
  have orders (o : Order) (claimed : Bool) : liveOrders (vetoOrder o claimed there) =
      (liveOrders s).filter fun x => x.id != o.id := liveOrders_retireOrder o.id there
  have others (o : Order) (claimed : Bool) : (vetoOrder o claimed there).timer = there.timer ∧
      (vetoOrder o claimed there).membership = s.membership ∧ (vetoOrder o claimed there).carrier = s.carrier ∧
      (vetoOrder o claimed there).profile = s.profile :=
    ⟨retireOrder_timer .., retireOrder_membership .., retireOrder_carrier .., retireOrder_profile ..⟩
  have armed (o : Order) : liveOrders (armOrder o there) =
      (liveOrders s).map fun x => if x.id = o.id then { x with armed := true } else x :=
    (liveOrders_updateOrder ..).trans (by simp only [beq_iff_eq]; rfl)
  have armedHigh (o : Order) (unclaimed : s.timer.claims.veto = false) : decideOrder .high o there = armOrder o there :=
    if_neg (by rw [show there.timer.claims.veto = false from unclaimed]; decide)
  constructor
  · intro empty
    refine ⟨fun o live target => ⟨⟨_, (exec_vetoSample_due hg reached (due live target) (.inl rfl)).trans
      (congrArg _ (settleReading_none ?_ false)), ?_⟩, fun unclaimed => ⟨armOrder o there, ?_, armed o, rfl⟩⟩,
      fun claim => ?_, fun free => ⟨fun unclaimed => ?_, fun claim => ?_, fun unclaimed => ?_⟩⟩
    · exact (congrArg EpochTimer.provisional (others o _).1).trans empty
    · obtain ⟨timer, membership, carrier, profile⟩ := others o s.timer.claims.veto
      exact ⟨orders o _, vetoed o _, timer, membership, carrier, profile⟩
    · refine (exec_vetoSample_due hg reached (due live target) (.inr unclaimed)).trans (congrArg _ ?_)
      refine (congrArg (settleReading false) (armedHigh o unclaimed)).trans (settleReading_none (s := armOrder o there) empty false)
    · exact (exec_vetoSample_fault hg reached claim).trans (congrArg (fun p => Host.Outcome.next (withdraw .holdFault
        { there with timer := { there.timer with provisional := p } })) empty.symm)
    · exact (exec_vetoSample_clear hg reached (clear free) (.inl ⟨rfl, unclaimed⟩)).trans
        (congrArg _ (settleReading_none (s := there) empty false))
    · exact (exec_vetoSample_clear hg reached (clear free) (.inr ⟨rfl, claim⟩)).trans
        (congrArg _ (settleReading_none (s := there) empty false))
    · refine (exec_vetoSample_stray hg reached (clear free) unclaimed).trans (congrArg Host.Outcome.next ?_)
      exact congrArg (withdrawIf _) (settleReading_none (s := (countTally .stray there).1)
        ((congrArg EpochTimer.provisional (countTally_timer ..)).trans empty) true)
  · rintro ⟨m, lead, released, lagKept⟩ waits mark member lag keeping discarding
    obtain rfl : m = g.counter := mark
    have settles (u : State) (timer : u.timer = there.timer) (state : u.membership.state = .member) :
        settleReading false u = skewChecked ⟨g.counter, lead, released, lagKept⟩ u := by
      have counter : u.timer.grid = some { g with point := samplePhase s.profile } := congrArg EpochTimer.grid timer
      rw [settleReading_some ((congrArg EpochTimer.provisional timer).trans waits) (nowEpoch_of_grid counter).symm,
        if_neg Bool.false_ne_true, keepReading_member _ state]
    refine ⟨fun free => ⟨fun unclaimed narrow => ?_, fun unclaimed wide => ?_, fun unclaimed => ?_, fun claim narrow => ?_⟩,
      fun claim => ?_, fun o live target unclaimed => ⟨(armOrder o there).orders.schedule, armed o, fun narrow => ?_, fun wide => ?_⟩,
      fun o live target => ?_⟩
    · refine (exec_vetoSample_clear hg reached (clear free) (.inl ⟨rfl, unclaimed⟩)).trans (congrArg _ ?_)
      exact (settles there rfl member).trans (if_neg (Nat.not_lt.mpr narrow))
    · refine (exec_vetoSample_clear hg reached (clear free) (.inl ⟨rfl, unclaimed⟩)).trans (congrArg _ ?_)
      exact (settles there rfl member).trans (if_pos wide)
    · refine (exec_vetoSample_stray hg reached (clear free) unclaimed).trans (congrArg Host.Outcome.next ?_)
      have counts : countTally .stray discarding = ({ (countTally .stray there).1 with timer := discarding.timer },
        (countTally .stray there).2) := countTally_withTimer .stray there discarding.timer rfl
      rw [counts]
      refine congrArg (withdrawIf _) ?_
      have timer : (countTally .stray there).1.timer = there.timer := countTally_timer ..
      have counter : (countTally .stray there).1.timer.grid = some { g with point := samplePhase s.profile } :=
        congrArg EpochTimer.grid timer
      refine (settleReading_some ((congrArg EpochTimer.provisional timer).trans waits) (nowEpoch_of_grid counter).symm true).trans ?_
      exact congrArg (fun t : EpochTimer => ({ (countTally .stray there).1 with timer := { t with provisional := none } } : State)) timer
    · refine (exec_vetoSample_clear hg reached (clear free) (.inr ⟨rfl, claim⟩)).trans (congrArg _ ?_)
      exact (settles there rfl member).trans (if_neg (Nat.not_lt.mpr narrow))
    · exact exec_vetoSample_fault hg reached claim
    · refine (exec_vetoSample_due hg reached (due live target) (.inr unclaimed)).trans (congrArg _ ?_)
      refine (congrArg (settleReading false) (armedHigh o unclaimed)).trans ?_
      exact (settles (armOrder o there) rfl member).trans (if_neg (Nat.not_lt.mpr narrow))
    · refine (exec_vetoSample_due hg reached (due live target) (.inr unclaimed)).trans (congrArg _ ?_)
      refine (congrArg (settleReading false) (armedHigh o unclaimed)).trans ?_
      exact (settles (armOrder o there) rfl member).trans (if_pos wide)
    · obtain ⟨timer, membership, carrier, profile⟩ := others o s.timer.claims.veto
      have settled := settles (vetoOrder o s.timer.claims.veto there) timer ((congrArg _ membership).trans member)
      refine ⟨_, (exec_vetoSample_due hg reached (due live target) (.inl rfl)).trans (congrArg _ settled), ?_, fun narrow => ?_⟩
      · exact vetoed o s.timer.claims.veto ▸ skewChecked_notices _ _
      · have kept : skewChecked ⟨g.counter, lead, released, lagKept⟩ (vetoOrder o s.timer.claims.veto there) =
            readingKept ⟨g.counter, lead, released, lagKept⟩ (vetoOrder o s.timer.claims.veto there) :=
          if_neg (by rw [eighth, profile]; exact Nat.not_lt.mpr narrow)
        rw [kept]
        refine ⟨orders o s.timer.claims.veto, vetoed o s.timer.claims.veto, ?_, membership, carrier⟩
        rw [readingKept, eighth, profile]
        exact congrArg (fun t : EpochTimer => { t with
          provisional := none, lastReading := some ⟨g.counter, lead, lag⟩ }) timer

end Sys2Proof.Machine
end
section
/-! What an offer to the Transmit Queue does, case by case (R152 to R154), and what every offer and loss leaves: how many
notices, and which frames. -/

namespace Sys2Proof.Machine

/-! ### The six cases of an offer -/

/-- In a queue within its limits one frame at most is of the class of an offered one. -/
theorem find_sameLimit {p : Payload} {s : State} {e : QueueEntry} (limits : QueueInLimits s) (held : e ∈ s.queue.entries)
    (same : sameLimit p e.payload = true) : (s.queue.entries.find? fun x => sameLimit p x.payload) = some e := by
  obtain ⟨-, apart, -⟩ := limits
  cases found : s.queue.entries.find? fun x => sameLimit p x.payload with
  | none => simp only [List.find?_eq_none] at found; exact absurd same (found e held)
  | some x =>
    have hx := List.mem_of_find?_eq_some found
    have both : sameLimit x.payload e.payload = true := by
      rw [← sameLimit_congr (by simpa using List.find?_some found)]; exact same
    by_contra ne
    have := pairwise_apart (R := fun a b : QueueEntry => sameLimit a.payload b.payload = false)
      (fun a b h => sameLimit_comm a.payload b.payload ▸ h) (apart.imp fun ⟨_, _, h⟩ => h) hx held fun h => ne (h ▸ rfl)
    rw [this] at both; cases both

theorem offerWith_found (f : Payload → State → State) {p : Payload} {s : State} {e : QueueEntry} (limits : QueueInLimits s)
    (held : e ∈ s.queue.entries) (same : sameLimit p e.payload = true) : offerWith f p s =
      if inTransmission s e = true then f p (postDropped .refused p s) else replaceFrame e p s := by
  simp only [offerWith, find_sameLimit limits held same]

theorem offerWith_room (f : Payload → State → State) {p : Payload} {s : State}
    (fresh : ∀ e ∈ s.queue.entries, sameLimit p e.payload = false) (room : s.queue.entries.length < 8) :
    offerWith f p s = appendFrame p s := by
  have none : (s.queue.entries.find? fun e => sameLimit p e.payload) = none := by simpa using fresh
  simp [offerWith, none, Config.queuePlaces, room]

theorem highestCode_eq {s : State} {e : QueueEntry} (held : e ∈ s.queue.entries)
    (top : ∀ x ∈ s.queue.entries, kindCode (payloadKind x.payload) ≤ kindCode (payloadKind e.payload)) :
    highestCode s = kindCode (payloadKind e.payload) := by
  obtain ⟨x, hx, code⟩ := exists_highestCode (s := s) (List.ne_nil_of_mem held)
  exact le_antisymm (code ▸ top x hx) (le_highestCode held)

theorem offerWith_refused (f : Payload → State → State) {p : Payload} {s : State}
    (fresh : ∀ e ∈ s.queue.entries, sameLimit p e.payload = false) (full : s.queue.entries.length = 8)
    (urgent : ∀ e ∈ s.queue.entries, kindCode (payloadKind e.payload) ≤ kindCode (payloadKind p)) :
    offerWith f p s = f p (postDropped .refused p s) := by
  have none : (s.queue.entries.find? fun e => sameLimit p e.payload) = none := by simpa using fresh
  obtain ⟨e, he, code⟩ := exists_highestCode (s := s) fun h => by rw [h] at full; cases full
  have top : ¬ kindCode (payloadKind p) < highestCode s := code ▸ Nat.not_lt.mpr (urgent e he)
  simp [offerWith, none, Config.queuePlaces, full, top]

/-- A full queue with a less urgent frame: the newest waiting one of the highest code goes, or the one in transmission. -/
theorem offerWith_full (f : Payload → State → State) {p : Payload} {s : State}
    (fresh : ∀ e ∈ s.queue.entries, sameLimit p e.payload = false) (full : 8 ≤ s.queue.entries.length)
    (less : kindCode (payloadKind p) < highestCode s) :
    (∃ victim ∈ s.queue.entries, newestWaiting (highestCode s) s = some victim ∧
      kindCode (payloadKind victim.payload) = highestCode s ∧ inTransmission s victim = false ∧
      offerWith f p s = f victim.payload (postDropped .displaced victim.payload (appendFrame p (removeFrame victim.ident s)))) ∨
    ∃ a, ∃ e ∈ s.queue.entries, newestWaiting (highestCode s) s = none ∧ s.bus.sending = some a ∧ e.ident = a.ident ∧
      kindCode (payloadKind e.payload) = highestCode s ∧ offerWith f p s =
        appendFrame p (removeFrame a.ident { s with bus := { s.bus with sending := some { a with displaced := true } } }) := by
  have unfound : (s.queue.entries.find? fun e => sameLimit p e.payload) = none := by simpa using fresh
  cases waiting : newestWaiting (highestCode s) s with
  | some victim =>
    obtain ⟨held, code, waits⟩ := mem_of_newestWaiting waiting
    refine .inl ⟨victim, held, rfl, code, waits, ?_⟩
    simp [offerWith, unfound, Config.queuePlaces, Nat.not_lt.mpr full, less, waiting]
  | none =>
    obtain ⟨e, he, code⟩ := exists_highestCode (s := s) fun h => by rw [h] at full; exact absurd full (by decide)
    have sent : inTransmission s e = true := by
      rw [newestWaiting, List.getLast?_eq_none_iff, List.filter_eq_nil_iff] at waiting
      simpa [code] using waiting e he
    cases sending : s.bus.sending with
    | none => simp [inTransmission, sending] at sent
    | some a =>
      simp only [inTransmission, sending, Option.any_some, Bool.and_eq_true, beq_iff_eq] at sent
      refine .inr ⟨a, e, he, rfl, rfl, sent.1.symm, code, ?_⟩
      simp [offerWith, unfound, Config.queuePlaces, Nat.not_lt.mpr full, less, waiting, sending]

/-- The newest waiting frame of a kind is the one that none of the kind is newer than. -/
theorem newestWaiting_eq {s : State} {e : QueueEntry} (limits : QueueInLimits s) (held : e ∈ s.queue.entries)
    (waits : inTransmission s e = false)
    (newest : ∀ x ∈ s.queue.entries, kindCode (payloadKind x.payload) = kindCode (payloadKind e.payload) →
      inTransmission s x = false → x.age ≤ e.age) :
    newestWaiting (kindCode (payloadKind e.payload)) s = some e := by
  obtain ⟨-, apart, -⟩ := limits
  let waiting := s.queue.entries.filter fun x =>
    kindCode (payloadKind x.payload) == kindCode (payloadKind e.payload) && !inTransmission s x
  have older : waiting.Pairwise fun a b => a.age < b.age := (apart.imp fun ⟨h, _⟩ => h).sublist List.filter_sublist
  have among : e ∈ waiting := List.mem_filter.mpr ⟨held, by simp [waits]⟩
  show waiting.getLast? = some e
  obtain ⟨front, last, split⟩ : ∃ front last, waiting = front ++ [last] :=
    ⟨_, _, (List.dropLast_append_getLast (List.ne_nil_of_mem among)).symm⟩
  rw [split, List.getLast?_append, List.getLast?_singleton]
  have lastHeld : last ∈ waiting := by rw [split]; simp
  obtain ⟨there, kind⟩ := List.mem_filter.mp lastHeld
  have bound : last.age ≤ e.age := by
    simp only [Bool.and_eq_true, beq_iff_eq, Bool.not_eq_true'] at kind
    exact newest last there kind.1 kind.2
  rw [split] at older among
  rcases List.mem_append.mp among with front | last
  · have := (List.pairwise_append.mp older).2.2 e front last (by simp)
    omega
  · rw [List.mem_singleton.mp last]; rfl

/-! ### How many notices a loss can post -/

/-- The notices waiting and two more for each open ballot: what a loss does not raise. -/
def noticeDemand (s : State) : Nat := s.monitor.notices.length + 2 * (openBallots s).length

theorem post_notices_length (r : Report) (s : State) : (post r s).monitor.notices.length ≤ s.monitor.notices.length + 1 := by
  show (postNotice _ _ _).notices.length ≤ _
  rcases postNotice_cases s.profile.noticeMask ⟨r, s.timer.grid.map (·.counter)⟩ s.monitor with same | ⟨-, queued⟩ | full
  · rw [same]; omega
  · rw [queued]; simp
  · rw [full]; exact Nat.le_succ _

theorem noticeDemand_post (r : Report) (s : State) : noticeDemand (post r s) ≤ noticeDemand s + 1 := by
  have := post_notices_length r s
  show _ + 2 * (openBallots s).length ≤ _ + 2 * (openBallots s).length + 1
  omega

/-- The order of a ballot and the ballot are gone, and so are the waiting frames of the order. -/
def ownOrderGone (b : Ballot) (s : State) : State := purgeOrder (ownId s b.seq) (freeBallot b.seq (removeOrder (ownId s b.seq) s))

theorem abortWith_eq (f : Payload → State → State) (b : Ballot) (reason : AbortReason) (refuser : StationNo) (s : State) :
    abortWith f b reason refuser s = post (.orderAborted refuser (ownId s b.seq) reason)
      (if reason = .unsent then ownOrderGone b s else offerWith f (.abort b.seq b.target reason refuser) (ownOrderGone b s)) := rfl

theorem openBallots_ownOrderGone (b : Ballot) (s : State) :
    openBallots (ownOrderGone b s) = (openBallots s).filter fun x => !(x.seq == b.seq) :=
  openBallots_freeBallot b.seq (removeOrder (ownId s b.seq) s)

theorem liveOrders_ownOrderGone (b : Ballot) (s : State) :
    liveOrders (ownOrderGone b s) = (liveOrders s).filter fun o => !(o.id == ownId s b.seq) :=
  liveOrders_removeOrder (ownId s b.seq) s

/-- An open ballot that ends frees two notices. -/
theorem noticeDemand_ownOrderGone {b : Ballot} {s : State} (h : ballotWithSeq s b.seq = some b) :
    noticeDemand (ownOrderGone b s) + 2 ≤ noticeDemand s := by
  have fewer : (openBallots (ownOrderGone b s)).length < (openBallots s).length := by
    rw [openBallots_ownOrderGone]
    exact List.length_filter_lt_length_iff_exists.mpr ⟨b, (ballotWithSeq_some h).1, by simp⟩
  show s.monitor.notices.length + 2 * (openBallots (ownOrderGone b s)).length + 2 ≤
    s.monitor.notices.length + 2 * (openBallots s).length
  omega

/-- An offer posts one notice of its own. -/
theorem noticeDemand_offerWith {f : Payload → State → State} (hf : ∀ p s, noticeDemand (f p s) ≤ noticeDemand s) (p : Payload)
    (s : State) : noticeDemand (offerWith f p s) ≤ noticeDemand s + 1 := by
  have dropped : ∀ (q : Payload) (how : FrameLoss) (u : State), noticeDemand (f q (postDropped how q u)) ≤ noticeDemand u + 1 :=
    fun q how u => (hf q _).trans (noticeDemand_post _ u)
  have same : ∀ q b, noticeDemand { s with queue := q, bus := b } = noticeDemand s := fun _ _ => rfl
  unfold offerWith
  split
  · split
    · exact dropped _ _ s
    · exact Nat.le_succ _
  · split
    · exact Nat.le_succ _
    · split
      · split
        · exact dropped _ _ (appendFrame p (removeFrame _ s))
        · split <;> exact Nat.le_succ _
      · exact dropped _ _ s

theorem noticeDemand_abortWith {f : Payload → State → State} (hf : ∀ p s, noticeDemand (f p s) ≤ noticeDemand s) {b : Ballot}
    {s : State} (h : ballotWithSeq s b.seq = some b) (reason : AbortReason) (refuser : StationNo) :
    noticeDemand (abortWith f b reason refuser s) ≤ noticeDemand s := by
  rw [abortWith_eq]
  have gone := noticeDemand_ownOrderGone h
  refine (noticeDemand_post _ _).trans ?_
  split
  · omega
  · have := noticeDemand_offerWith hf (.abort b.seq b.target reason refuser) (ownOrderGone b s)
    omega

theorem noticeDemand_endLeaving (s : State) : noticeDemand (endLeaving s) ≤ noticeDemand s := by
  unfold endLeaving
  split
  · exact le_rfl
  · split
    · have none : openBallots (enterIdle s) = [] := openBallots_cleared _ s.orders rfl
      show s.monitor.notices.length + 2 * (openBallots (enterIdle s)).length ≤ _
      rw [none]
      exact Nat.le_add_right ..
    · exact le_rfl

/-- A loss, with all it leads to, posts no more notices than the ballots it ends leave room for. -/
theorem noticeDemand_lose (n : Nat) (p : Payload) (s : State) : noticeDemand (lose n p s) ≤ noticeDemand s := by
  induction n generalizing p s with
  | zero => exact le_rfl
  | succ n ih =>
    unfold lose
    split
    · split
      · rename_i found
        split
        · exact noticeDemand_abortWith ih ((ballotWithSeq_some found).2.symm ▸ found) _ _
        · exact le_rfl
      · exact le_rfl
    · split
      · rename_i found
        split
        · exact noticeDemand_abortWith ih ((ballotWithSeq_some found).2.symm ▸ found) _ _
        · exact le_rfl
      · exact le_rfl
    · exact le_rfl
    · exact noticeDemand_endLeaving s
    · exact le_rfl

end Sys2Proof.Machine
end
section
/-! Offers and aborts with their consequences: what every step of an offer that can lose frames keeps, the frames that stay,
and the statements on offers and on aborts. -/

namespace Sys2Proof.Machine

/-! ### Properties that depend on which frames are offered and lost -/

/-- Whether a frame is the one on which a ballot waits by its state: its PROPOSE, then its COMMIT. -/
def carriesBallot (b : Ballot) (p : Payload) : Bool :=
  (b.state == .awaitingSend && payloadKind p == .propose) || (b.state == .committing && payloadKind p == .commit)

/-- A property that every update of an offer keeps, where `A` holds of the frames offered on the way and `L` of those lost. -/
structure KeptByOffers (A L : Payload → Prop) (P : State → Prop) : Prop where
  post : ∀ (r : Report) (s : State), P s → P (Machine.post r s)
  append : ∀ p s, A p → P s → P (appendFrame p s)
  replace : ∀ p e s, A p → e ∈ s.queue.entries → sameLimit p e.payload = true → P s → P (replaceFrame e p s)
  remove : ∀ p e s, A p → e ∈ s.queue.entries → kindCode (payloadKind p) < kindCode (payloadKind e.payload) → P s →
    P (removeFrame e.ident s)
  displace : ∀ p (a : Sending) e s, A p → e ∈ s.queue.entries → kindCode (payloadKind p) < kindCode (payloadKind e.payload) →
    s.bus.sending = some a → a.ident = e.ident → P s →
    P (removeFrame e.ident { s with bus := { s.bus with sending := some { a with displaced := true } } })
  victim : ∀ p e s, A p → e ∈ s.queue.entries → kindCode (payloadKind p) < kindCode (payloadKind e.payload) →
    inTransmission s e = false → P s → L e.payload
  refused : ∀ p, A p → L p
  unsent : ∀ id s, P s → P (updateOrder id (fun o => { o with vote := .unsent }) s)
  leaving : ∀ s, P s → s.membership.leaving = none
  abandon : ∀ p b s, L p → frameOrderId (ownNumber s) p = some (ownId s b.seq) → carriesBallot b p = true →
    ballotWithSeq s b.seq = some b → P s → P (ownOrderGone b s)
  abort : ∀ b s reason refuser, L (.commit b.seq b.target) → ballotWithSeq s b.seq = some b → P s →
    A (.abort b.seq b.target reason refuser)

section
variable {A L : Payload → Prop} {P : State → Prop}

theorem KeptByOffers.offerWith (h : KeptByOffers A L P) {f : Payload → State → State} (hf : ∀ p s, L p → P s → P (f p s))
    {p : Payload} (hp : A p) (s : State) (hs : P s) : P (Machine.offerWith f p s) := by
  unfold Machine.offerWith
  split
  case h_1 e found =>
    split
    · exact hf _ _ (h.refused p hp) (h.post _ _ hs)
    · exact h.replace p e s hp (List.mem_of_find?_eq_some found) (by simpa using List.find?_some found) hs
  case h_2 =>
    split
    · exact h.append p s hp hs
    · split
      case isTrue less =>
        split
        case h_1 victim waiting =>
          obtain ⟨held, code, waits⟩ := mem_of_newestWaiting waiting
          rw [← code] at less
          exact hf _ _ (h.victim p victim s hp held less waits hs) (h.post _ _ (h.append p _ hp (h.remove p victim s hp held less hs)))
        case h_2 waiting =>
          split
          case h_1 a sending =>
            obtain ⟨e, held, code⟩ := exists_highestCode (s := s) fun empty => by
              rw [highestCode, empty] at less; exact absurd less (Nat.not_lt_zero _)
            have sent : inTransmission s e = true := by
              rw [newestWaiting, List.getLast?_eq_none_iff, List.filter_eq_nil_iff] at waiting
              simpa [code] using waiting e held
            simp only [inTransmission, sending, Option.any_some, Bool.and_eq_true, beq_iff_eq] at sent
            have taken := h.append p _ hp (h.displace p a e s hp held (code ▸ less) sending sent.1 hs)
            rw [← sent.1] at taken
            exact taken
          case h_2 => exact hs
      case isFalse => exact hf _ _ (h.refused p hp) (h.post _ _ hs)

theorem KeptByOffers.lose (h : KeptByOffers A L P) (n : Nat) {p : Payload} (hp : L p) (s : State) (hs : P s) :
    P (Machine.lose n p s) := by
  induction n generalizing p s with
  | zero => exact hs
  | succ n ih =>
    unfold Machine.lose
    split
    case h_1 seq target mask tone mode =>
      split
      case h_1 b found =>
        obtain ⟨-, rfl⟩ := ballotWithSeq_some found
        split
        case isTrue own =>
          have carries : carriesBallot b (.propose b.seq target mask tone mode) = true := by simp [carriesBallot, own.1, payloadKind]
          exact h.post _ _ (h.abandon _ b s hp rfl carries found hs)
        case isFalse => exact hs
      case h_2 => exact hs
    case h_2 seq target =>
      split
      case h_1 b found =>
        obtain ⟨-, rfl⟩ := ballotWithSeq_some found
        split
        case isTrue own =>
          obtain ⟨committing, rfl⟩ := own
          have carries : carriesBallot b (.commit b.seq b.target) = true := by simp [carriesBallot, committing, payloadKind]
          exact h.post _ _ (h.offerWith (fun p s hp hs => ih hp s hs) (h.abort b s .commitLost (ownNumber s) hp found hs) _
            (h.abandon _ b s hp rfl carries found hs))
        case isFalse => exact hs
      case h_2 => exact hs
    case h_3 => exact h.unsent _ s hs
    case h_4 => rw [endLeaving_none s (h.leaving s hs)]; exact hs
    case h_5 => exact hs

end

/-! ### A frame taken in stays -/

/-- A frame refers to another order than a given one, if at all. -/
def OtherOrder (own : StationNo) (x : QueueEntry) (p : Payload) : Prop :=
  ∀ id, frameOrderId own x.payload = some id → frameOrderId own p ≠ some id

/-- The frame `x` is held. Either no ballot of its order is open, or no other frame held refers to its order. -/
def FrameStays (own : StationNo) (x : QueueEntry) (closed : Prop) (s : State) : Prop :=
  s.membership.leaving = none ∧ ownNumber s = own ∧ x ∈ s.queue.entries ∧ x.ident < s.queue.nextIdent ∧
    (∀ e ∈ s.queue.entries, e = x ∨ (e.ident ≠ x.ident ∧ (closed ∨ OtherOrder own x e.payload))) ∧
    (closed → ∀ b ∈ openBallots s, frameOrderId own x.payload ≠ some ⟨own, b.seq⟩)

/-- A frame that stays is not named by the order-id purge of an open ballot. -/
theorem frameStays_ownOrderGone {own : StationNo} {x : QueueEntry} {closed : Prop} {s : State} {b : Ballot}
    (other : frameOrderId own x.payload ≠ some ⟨own, b.seq⟩) (h : FrameStays own x closed s) :
    FrameStays own x closed (ownOrderGone b s) := by
  obtain ⟨leaving, number, held, ident, apart, ballots⟩ := h
  refine ⟨leaving, number, List.mem_filter.mpr ⟨held, ?_⟩, ident, fun e he => apart e (List.mem_of_mem_filter he), fun isClosed y hy => ?_⟩
  · have unpicked : (frameOrderId (ownNumber s) x.payload == some (ownId s b.seq)) = false := by
      rw [ownId, number]; exact beq_eq_false_iff_ne.mpr other
    exact congrArg (fun c => !(c && _)) unpicked
  · rw [openBallots_ownOrderGone] at hy
    exact ballots isClosed y (List.mem_of_mem_filter hy)

theorem abort_not_displaced {p q : Payload} (kind : payloadKind q = .abort) :
    ¬ kindCode (payloadKind p) < kindCode (payloadKind q) := by
  rw [kind]
  exact Nat.not_lt.mpr (kindCode_pos _)

theorem sameLimit_abort {p q : Payload} (kind : payloadKind q = .abort) : sameLimit p q = false := by
  cases q <;> cases kind
  cases p <;> rfl

/-- An ABORT is not removed for another frame. -/
theorem frameStays_removeFrame {own : StationNo} {x e : QueueEntry} {closed : Prop} {s : State} {p : Payload}
    (first : payloadKind x.payload = .abort) (he : e ∈ s.queue.entries)
    (less : kindCode (payloadKind p) < kindCode (payloadKind e.payload)) (h : FrameStays own x closed s) :
    FrameStays own x closed (removeFrame e.ident s) := by
  obtain ⟨leaving, number, held, ident, apart, ballots⟩ := h
  have other : x.ident ≠ e.ident := fun same => by
    rcases apart e he with rfl | ⟨differs, -⟩
    · exact abort_not_displaced first less
    · exact differs same.symm
  exact ⟨leaving, number, List.mem_filter.mpr ⟨held, by simpa using other⟩, ident,
    fun e he => apart e (List.mem_of_mem_filter he), ballots⟩

theorem frameStays_keptByOffers (own : StationNo) (x : QueueEntry) (closed : Prop) : KeptByOffers
    (fun p => (closed ∨ OtherOrder own x p) ∧ payloadKind x.payload = .abort)
    (fun p => (closed ∨ OtherOrder own x p) ∧ (payloadKind p = .commit → payloadKind x.payload = .abort))
    (FrameStays own x closed) where
  post _ _ h := h
  append := by
    rintro p s ⟨other, -⟩ ⟨leaving, number, held, ident, apart, ballots⟩
    refine ⟨leaving, number, List.mem_append_left _ held, Nat.lt_succ_of_lt ident, fun e he => ?_, ballots⟩
    rcases List.mem_append.mp he with old | new
    · exact apart e old
    · rw [List.mem_singleton.mp new]
      exact .inr ⟨ident.ne', other⟩
  replace := by
    rintro p e s ⟨other, first⟩ he same ⟨leaving, number, held, ident, apart, ballots⟩
    have differs : e.ident ≠ x.ident := by
      rcases apart e he with rfl | ⟨differs, -⟩
      · rw [sameLimit_abort first] at same; cases same
      · exact differs
    refine ⟨leaving, number, List.mem_map.mpr ⟨x, held, if_neg (by simpa using differs.symm)⟩, Nat.lt_succ_of_lt ident,
      fun y hy => ?_, ballots⟩
    obtain ⟨z, hz, rfl⟩ := List.mem_map.mp hy
    split
    · exact .inr ⟨ident.ne', other⟩
    · exact apart z hz
  remove p e s offered he less h := frameStays_removeFrame offered.2 he less h
  displace := by
    rintro p a e s ⟨-, first⟩ he less - - h
    exact frameStays_removeFrame first he less (s := { s with bus := _ }) h
  victim := by
    rintro p e s ⟨-, first⟩ he less - ⟨-, -, -, -, apart, -⟩
    rcases apart e he with rfl | ⟨-, other⟩
    · exact absurd less (abort_not_displaced first)
    · exact ⟨other, fun _ => first⟩
  refused := fun p ⟨other, first⟩ => ⟨other, fun _ => first⟩
  unsent _ _ h := h
  leaving _ h := h.1
  abandon := by
    rintro p b s ⟨other, -⟩ order - found h
    obtain ⟨-, number, -, -, -, ballots⟩ := id h
    refine frameStays_ownOrderGone (fun same => ?_) h
    rw [ownId, number] at order
    rcases other with isClosed | other
    · exact ballots isClosed b (ballotWithSeq_some found).1 same
    · exact other _ same order
  abort := by
    rintro b s reason refuser ⟨other, first⟩ - -
    exact ⟨other, first rfl⟩

/-! ### An abort -/

theorem orderGone_keptByLosses (id : OrderId) : KeptByLosses fun s => ∀ o ∈ liveOrders s, o.id ≠ id where
  post _ _ h := h
  append _ _ h := h
  replace _ _ _ h := h
  remove _ _ h := h
  displace _ _ h := h
  unsent other s h o ho := by
    rw [liveOrders_updateOrder] at ho
    obtain ⟨x, hx, rfl⟩ := List.mem_map.mp ho
    have same : (if x.id == other then { x with vote := .unsent } else x).id = x.id := by split <;> rfl
    rw [same]; exact h x hx
  abandon other q s h o ho := by
    have ho : o ∈ liveOrders (removeOrder other s) := ho
    rw [liveOrders_removeOrder] at ho
    exact h o (List.mem_of_mem_filter ho)
  leave s h := by
    unfold endLeaving
    split
    · exact h
    · split
      · have orders : liveOrders (enterIdle s) = [] := liveOrders_cleared _ s.orders rfl
        exact fun o ho => absurd (orders ▸ ho) List.not_mem_nil
      · exact h

/-- No order and no ballot of an own sequence is left. -/
def OwnGone (id : OrderId) (seq : Seq) (s : State) : Prop := (∀ o ∈ liveOrders s, o.id ≠ id) ∧ ∀ b ∈ openBallots s, b.seq ≠ seq

theorem ownGone_fewer {id : OrderId} {seq : Seq} {s t : State} (orders : ∀ o ∈ liveOrders t, o ∈ liveOrders s)
    (ballots : ∀ b ∈ openBallots t, b ∈ openBallots s) (h : OwnGone id seq s) : OwnGone id seq t :=
  ⟨fun o ho => h.1 o (orders o ho), fun b hb => h.2 b (ballots b hb)⟩

theorem ownGone_keptByLosses (id : OrderId) (seq : Seq) : KeptByLosses (OwnGone id seq) where
  post _ _ h := h
  append _ _ h := h
  replace _ _ _ h := h
  remove _ _ h := h
  displace _ _ h := h
  unsent other s h := ⟨(orderGone_keptByLosses id).unsent other s h.1, h.2⟩
  abandon other q s h := by
    refine ⟨(orderGone_keptByLosses id).abandon other q s h.1, fun b hb => ?_⟩
    have hb : b ∈ openBallots (freeBallot q s) := hb
    rw [openBallots_freeBallot] at hb
    exact h.2 b (List.mem_of_mem_filter hb)
  leave s h := ⟨(orderGone_keptByLosses id).leave s h.1, fun b hb => h.2 b (endLeaving_openBallots s b hb)⟩

theorem ownGone_ownOrderGone (b : Ballot) (s : State) : OwnGone (ownId s b.seq) b.seq (ownOrderGone b s) := by
  refine ⟨fun o ho => ?_, fun x hx => ?_⟩
  · rw [liveOrders_ownOrderGone] at ho
    simpa using (List.mem_filter.mp ho).2
  · rw [openBallots_ownOrderGone] at hx
    simpa using (List.mem_filter.mp hx).2

/-- An abort leaves neither the order nor its ballot. -/
theorem ownGone_abortWith (n : Nat) (b : Ballot) (reason : AbortReason) (refuser : StationNo) (s : State) :
    OwnGone (ownId s b.seq) b.seq (abortWith (lose n) b reason refuser s) := by
  rw [abortWith_eq]
  have gone := ownGone_ownOrderGone b s
  have kept := ownGone_keptByLosses (ownId s b.seq) b.seq
  refine kept.post _ _ ?_
  split
  · exact gone
  · exact offerWith_keeps kept (lose_keeps kept n) _ _ gone

theorem openBallots_length_le (s : State) : (openBallots s).length ≤ 4 := Table.held_length_le _

theorem post_mem {r : Report} {s : State} (room : s.monitor.notices.length < 16)
    (enabled : s.profile.noticeMask.getLsbD (reportCode r - 1) = true) :
    (⟨r, s.timer.grid.map (·.counter)⟩ : Notice) ∈ (post r s).monitor.notices := by
  show _ ∈ (postNotice _ _ _).notices
  rw [postNotice_room enabled room]
  simp

/-- With at most six notices waiting, the ORDER_ABORTED of an abort finds a place. -/
theorem abortWith_notice (n : Nat) (b : Ballot) (reason : AbortReason) (refuser : StationNo) (s : State)
    (few : s.monitor.notices.length ≤ 6) (enabled : s.profile.noticeMask.getLsbD 13 = true) :
    ∃ x ∈ (abortWith (lose n) b reason refuser s).monitor.notices, x.report = .orderAborted refuser (ownId s b.seq) reason := by
  rw [abortWith_eq]
  have demand : noticeDemand (ownOrderGone b s) ≤ 14 := by
    have ballots := openBallots_length_le (ownOrderGone b s)
    show s.monitor.notices.length + 2 * (openBallots (ownOrderGone b s)).length ≤ 14
    omega
  have told : ∀ u : State, noticeDemand u ≤ 15 → u.profile = s.profile →
      ∃ x ∈ (post (.orderAborted refuser (ownId s b.seq) reason) u).monitor.notices,
        x.report = .orderAborted refuser (ownId s b.seq) reason := fun u room profile =>
    ⟨_, post_mem (by have : u.monitor.notices.length ≤ noticeDemand u := Nat.le_add_right ..; omega) (by rw [profile]; exact enabled), rfl⟩
  split
  · exact told _ (by omega) rfl
  · refine told _ ((noticeDemand_offerWith (noticeDemand_lose n) _ _).trans (by omega)) ?_
    exact (offerWith_keeps (SameBase.keptByLosses s) (lose_keeps (SameBase.keptByLosses s) n) _ (ownOrderGone b s)
      (SameBase.refl s)).1

/-- The frames that an abort leaves of its own order: those in transmission, and the ABORT. -/
def OrderFrames (own : StationNo) (seq : Seq) (good : QueueEntry → Prop) (s : State) : Prop :=
  s.membership.leaving = none ∧ ownNumber s = own ∧ (∀ b ∈ openBallots s, b.seq ≠ seq) ∧
    ∀ e ∈ s.queue.entries, frameOrderId own e.payload = some ⟨own, seq⟩ → good e

theorem orderFrames_keptByOffers (own : StationNo) (seq : Seq) (good : QueueEntry → Prop) : KeptByOffers
    (fun p => ∀ e : QueueEntry, e.payload = p → frameOrderId own p = some ⟨own, seq⟩ → good e) (fun _ => True)
    (OrderFrames own seq good) where
  post _ _ h := h
  append := by
    rintro p s new ⟨leaving, number, ballots, frames⟩
    refine ⟨leaving, number, ballots, fun e he order => ?_⟩
    rcases List.mem_append.mp he with old | taken
    · exact frames e old order
    · rw [List.mem_singleton.mp taken] at order ⊢; exact new _ rfl order
  replace := by
    rintro p e s new - - ⟨leaving, number, ballots, frames⟩
    refine ⟨leaving, number, ballots, fun x hx order => ?_⟩
    obtain ⟨y, hy, rfl⟩ := List.mem_map.mp hx
    split at order
    · rename_i same; rw [if_pos same]; exact new _ rfl order
    · rename_i other; rw [if_neg other]; exact frames y hy order
  remove := fun p e s _ _ _ ⟨leaving, number, ballots, frames⟩ =>
    ⟨leaving, number, ballots, fun x hx => frames x (List.mem_of_mem_filter hx)⟩
  displace := fun p a e s _ _ _ _ _ ⟨leaving, number, ballots, frames⟩ =>
    ⟨leaving, number, ballots, fun x hx => frames x (List.mem_of_mem_filter hx)⟩
  victim _ _ _ _ _ _ _ _ := trivial
  refused _ _ := trivial
  unsent _ _ h := h
  leaving _ h := h.1
  abandon := by
    rintro p b s - - - - ⟨leaving, number, ballots, frames⟩
    refine ⟨leaving, number, fun x hx => ?_, fun x hx => frames x (List.mem_of_mem_filter hx)⟩
    rw [openBallots_ownOrderGone] at hx
    exact ballots x (List.mem_of_mem_filter hx)
  abort := by
    rintro b s reason refuser - found ⟨-, -, ballots, -⟩ e - order
    exact absurd (OrderId.mk.inj (Option.some.inj order)).2 (ballots b (ballotWithSeq_some found).1)

theorem mem_ownOrderGone {b : Ballot} {s : State} {e : QueueEntry} : e ∈ (ownOrderGone b s).queue.entries ↔
    e ∈ s.queue.entries ∧ (frameOrderId (ownNumber s) e.payload = some (ownId s b.seq) → inTransmission s e = true) := by
  show e ∈ List.filter _ _ ↔ _
  rw [List.mem_filter]
  refine and_congr_right fun _ => ?_
  show (!(frameOrderId (ownNumber s) e.payload == some (ownId s b.seq) && !inTransmission s e)) = true ↔ _
  simp [imp_iff_not_or]

theorem queueInLimits_purgeOrder (id : OrderId) {s : State} (h : QueueInLimits s) : QueueInLimits (purgeOrder id s) := by
  obtain ⟨places, apart, idents, attempt, frames⟩ := h
  refine ⟨(List.length_filter_le ..).trans places, apart.sublist List.filter_sublist,
    fun e he => idents e (List.mem_of_mem_filter he), fun a ha => ?_, fun here e he => frames here e (List.mem_of_mem_filter he)⟩
  have sending : a ∈ (forgetAttempts _ _).sending := ha
  rw [forgetAttempts_sending] at sending
  obtain ⟨x, hx, rfl⟩ := Option.map_eq_some_iff.mp sending
  exact attempt x hx

theorem queueInLimits_ownOrderGone (b : Ballot) {s : State} (h : QueueInLimits s) : QueueInLimits (ownOrderGone b s) :=
  queueInLimits_purgeOrder (s := freeBallot b.seq (removeOrder (ownId s b.seq) s)) _ h

/-- Only an ABORT is more urgent than a COMMIT. -/
theorem kind_of_code_lt_commit {kind : FrameKind} (h : kindCode kind < kindCode .commit) : kind = .abort := by
  revert h; cases kind <;> decide

theorem code_of_kind_ne_abort {kind : FrameKind} (h : kind ≠ .abort) : kindCode .abort < kindCode kind := by
  revert h; cases kind <;> decide

/-- A frame offered to a full queue that holds a less urgent one is held afterwards, whatever the loss it causes leads to: no
ballot of its order is open, or no frame that could be lost refers to its order. -/
theorem mem_offer_of_full {p : Payload} {s : State} {closed : Prop} (limits : QueueInLimits s) (leaving : s.membership.leaving = none)
    (fresh : ∀ e ∈ s.queue.entries, sameLimit p e.payload = false) (full : s.queue.entries.length = 8)
    (less : ∃ e ∈ s.queue.entries, kindCode (payloadKind p) < kindCode (payloadKind e.payload))
    (others : ∀ e ∈ s.queue.entries, closed ∨ OtherOrder (ownNumber s) ⟨s.queue.nextIdent, s.queue.nextIdent, p⟩ e.payload)
    (ballots : closed → ∀ b ∈ openBallots s, frameOrderId (ownNumber s) p ≠ some ⟨ownNumber s, b.seq⟩) :
    ⟨s.queue.nextIdent, s.queue.nextIdent, p⟩ ∈ (offer p s).queue.entries := by
  obtain ⟨-, -, idents, -, -⟩ := limits
  obtain ⟨e, he, code⟩ := less
  have top : kindCode (payloadKind p) < highestCode s := lt_of_lt_of_le code (le_highestCode he)
  rcases offerWith_full loseFrame fresh full.ge top with ⟨victim, held, -, victimCode, -, taken⟩ | ⟨a, -, -, -, -, -, -, taken⟩
  · have kept := frameStays_keptByOffers (ownNumber s) ⟨s.queue.nextIdent, s.queue.nextIdent, p⟩ closed
    have start : FrameStays (ownNumber s) ⟨s.queue.nextIdent, s.queue.nextIdent, p⟩ closed
        (postDropped .displaced victim.payload (appendFrame p (removeFrame victim.ident s))) := by
      refine ⟨leaving, rfl, List.mem_append_right _ (List.mem_singleton.mpr rfl), Nat.lt_succ_self _, fun x hx => ?_, ballots⟩
      rcases List.mem_append.mp hx with old | new
      · have hx := List.mem_of_mem_filter old
        exact .inr ⟨(idents x hx).2.ne, others x hx⟩
      · exact .inl (List.mem_singleton.mp new)
    have lost : payloadKind victim.payload = .commit → payloadKind p = .abort := fun commit => by
      rw [← victimCode, commit] at top
      exact kind_of_code_lt_commit top
    obtain ⟨-, -, stays, -⟩ := kept.lose Config.lossDepth ⟨others victim held, lost⟩ _ start
    rw [offer, taken]
    exact stays
  · rw [offer, taken]
    exact List.mem_append_right _ (List.mem_singleton.mpr rfl)

/-- Settles O30. -/
theorem abortEndsAnOwnOrder : Obligations.AbortEndsAnOwnOrder := by
  intro b reason refuser s limits leaving t aborted
  have untold (quiet : reason = .unsent) : t = aborted (ownOrderGone b s) := congrArg aborted (if_pos quiet)
  have told (loud : reason ≠ .unsent) : t = aborted (offer (.abort b.seq b.target reason refuser) (ownOrderGone b s)) :=
    congrArg aborted (if_neg loud)
  have fresh : ∀ e ∈ (ownOrderGone b s).queue.entries, sameLimit (.abort b.seq b.target reason refuser) e.payload = false :=
    fun e _ => rfl
  have fewer : (ownOrderGone b s).queue.entries.length ≤ s.queue.entries.length := List.length_filter_le ..
  have gone := ownGone_ownOrderGone b s
  obtain ⟨orders, ballots⟩ := ownGone_abortWith Config.lossDepth b reason refuser s
  obtain ⟨profile, -, carrier, -, -, sequence, -⟩ := abortOwn_base b reason refuser s
  obtain ⟨timer, membership⟩ := abortOwn_station b reason refuser s leaving
  refine ⟨orders, ballots, fun e he order => ?_, fun loud room => ?_, fun quiet e he => ?_, fun undisturbed => ?_,
    fun loud full others => ?_, fun empty enabled => ?_, profile, timer, membership, carrier, sequence⟩
  · have kept := orderFrames_keptByOffers (ownNumber s) b.seq fun e => (e ∈ s.queue.entries ∧ inTransmission s e = true) ∨
      (e.payload = .abort b.seq b.target reason refuser ∧ reason ≠ .unsent)
    have start : OrderFrames (ownNumber s) b.seq (fun e => (e ∈ s.queue.entries ∧ inTransmission s e = true) ∨
        (e.payload = .abort b.seq b.target reason refuser ∧ reason ≠ .unsent)) (ownOrderGone b s) :=
      ⟨leaving, rfl, gone.2, fun e he order => .inl ⟨(mem_ownOrderGone.mp he).1, (mem_ownOrderGone.mp he).2 order⟩⟩
    by_cases quiet : reason = .unsent
    · rw [untold quiet] at he
      exact start.2.2.2 e he order
    · rw [told quiet] at he
      have ⟨_, _, _, frames⟩ := kept.offerWith (f := loseFrame) (fun _ u hp hu => kept.lose Config.lossDepth hp u hu) (p := .abort b.seq b.target reason refuser)
        (fun e payload _ => .inr ⟨payload, quiet⟩) _ start
      exact frames e he order
  · rw [told loud]
    refine ⟨⟨s.queue.nextIdent, s.queue.nextIdent, .abort b.seq b.target reason refuser⟩, ?_, rfl⟩
    show _ ∈ (offer (.abort b.seq b.target reason refuser) (ownOrderGone b s)).queue.entries
    rcases Nat.lt_or_ge (ownOrderGone b s).queue.entries.length 8 with free | full
    · rw [offer_room _ _ fresh free]
      exact List.mem_append_right _ (List.mem_singleton.mpr rfl)
    · have places := limits.1
      have same : (ownOrderGone b s).queue.entries = s.queue.entries :=
        List.Sublist.eq_of_length_le List.filter_sublist (places.trans full)
      obtain ⟨e, he, other⟩ := room.resolve_left (by omega)
      refine mem_offer_of_full (closed := True) (queueInLimits_ownOrderGone b limits) leaving fresh (by omega)
        ⟨e, same.symm ▸ he, code_of_kind_ne_abort other⟩ (fun _ _ => .inl trivial) fun _ x hx same => ?_
      exact gone.2 x hx (OrderId.mk.inj (Option.some.inj same)).2.symm
  · rw [untold quiet] at he
    exact (mem_ownOrderGone.mp he).1
  · by_cases quiet : reason = .unsent
    · rw [untold quiet]; rfl
    · rw [told quiet, offer_room _ _ fresh (by have := undisturbed.resolve_left quiet; omega)]; rfl
  · have same : (ownOrderGone b s).queue.entries = s.queue.entries := by
      refine List.filter_eq_self.mpr fun e he => ?_
      have unpicked : (frameOrderId (ownNumber s) e.payload == some (ownId s b.seq)) = false :=
        beq_eq_false_iff_ne.mpr (others e he).2
      exact congrArg (fun c => !(c && _)) unpicked
    have refused : offer (.abort b.seq b.target reason refuser) (ownOrderGone b s) =
        postDropped .refused (.abort b.seq b.target reason refuser) (ownOrderGone b s) := by
      refine offerWith_refused loseFrame fresh (same ▸ full) fun e he => ?_
      rw [(others e (same ▸ he)).1]; rfl
    rw [told loud, refused]
    exact ⟨same, rfl⟩
  · exact abortWith_notice _ b reason refuser s (by omega) enabled

end Sys2Proof.Machine
end
section
/-! Offering a frame: replaced in place, taken, displacing another one, or refused (R152 to R155). -/

namespace Sys2Proof.Machine

/-! ### What the producer of a lost frame does (R155) -/

theorem loseFrame_propose {s : State} {seq : Seq} {target : Epoch} {b : Ballot} (found : ballotWithSeq s seq = some b)
    (state : b.state = .awaitingSend) (same : b.target = target) (mask : GroupMask) (tone : ToneIndex) (mode : PhaseMode) :
    loseFrame (.propose seq target mask tone mode) s = post (.orderAborted (ownNumber s) (ownId s seq) .unsent) (ownOrderGone b s) := by
  obtain ⟨-, rfl⟩ := ballotWithSeq_some found
  show lose (7 + 1) _ s = _
  simp only [lose, found, state, same, and_self, if_true]
  rfl

theorem loseFrame_commit {s : State} {seq : Seq} {target : Epoch} {b : Ballot} (found : ballotWithSeq s seq = some b)
    (state : b.state = .committing) (same : b.target = target) :
    loseFrame (.commit seq target) s = abortWith (lose 7) b .commitLost (ownNumber s) s := by
  show lose (7 + 1) _ s = _
  simp only [lose, found, state, same, and_self, if_true]

theorem inTransmission_congr {s t : State} (sending : t.bus.sending = s.bus.sending) (e : QueueEntry) :
    inTransmission t e = inTransmission s e := by
  rw [inTransmission, sending]; rfl

theorem kindCode_injective {a b : FrameKind} (h : kindCode a = kindCode b) : a = b := by
  revert h; cases a <;> cases b <;> decide

/-- In a queue within its limits an ident names one frame. -/
theorem entry_of_ident {s : State} {e x : QueueEntry} (limits : QueueInLimits s) (he : e ∈ s.queue.entries)
    (hx : x ∈ s.queue.entries) (same : x.ident = e.ident) : x = e := by
  obtain ⟨-, apart, -⟩ := limits
  by_contra other
  exact pairwise_apart (R := fun a b : QueueEntry => a.ident ≠ b.ident) (fun _ _ h => h.symm)
    (apart.imp fun ⟨_, h, _⟩ => h) hx he other same

/-- Settles O29. -/
theorem offeredFramesAreTakenReplacedOrRefused : Obligations.OfferedFramesAreTakenReplacedOrRefused := by
  intro p s limits leaving
  refine ⟨fun e held same waits => ?_, fun e held same sent => ?_, fun fresh room => offer_room p s fresh room,
    fun fresh full less others => ?_, fun fresh full urgent => offerWith_refused loseFrame fresh full urgent,
    fun victim full fresh held waits less top newest => ?_, fun victim a full fresh held sending ident displaced less others => ?_⟩
  · have replaced : offer p s = replaceFrame e p s := (offerWith_found loseFrame limits held same).trans (if_neg (by simp [waits]))
    rw [replaced]
    exact List.map_congr_left fun x _ => by simp only [beq_iff_eq]
  · exact (offerWith_found loseFrame limits held same).trans (if_pos sent)
  · exact ⟨_, mem_offer_of_full (closed := False) limits leaving fresh full less (fun e he => .inr (others e he)) False.elim, rfl, rfl⟩
  · intro t taken dropped
    have highest := highestCode_eq held top
    have chosen : newestWaiting (highestCode s) s = some victim :=
      highest ▸ newestWaiting_eq limits held waits fun x hx code waiting => newest x hx (kindCode_injective code) waiting
    have lost : t = loseFrame victim.payload (postDropped .displaced victim.payload (appendFrame p (removeFrame victim.ident s))) := by
      rcases offerWith_full loseFrame fresh full.ge (highest ▸ less) with ⟨other, -, waiting, -, -, displaced⟩ | ⟨-, -, -, waiting, -⟩
      · obtain rfl : other = victim := Option.some.inj (waiting.symm.trans chosen)
        exact displaced
      · rw [chosen] at waiting; cases waiting
    obtain ⟨timer, membership⟩ := offer_station p s leaving
    have sending : (appendFrame p (removeFrame victim.ident s)).bus.sending = s.bus.sending := forgetAttempts_sending ..
    refine ⟨membership, timer, offer_carrier p s, offer_profile p s, ?_, fun kind => ?_, fun origin seq vote => ?_,
      fun seq target mask tone mode b propose other found state same => ?_, fun seq target b commit found state same => ?_⟩
    · rw [lost]
      exact loseFrame_keeps (noticesFrom_keptByLosses dropped.monitor.notices) _ _ (List.prefix_refl _)
    · have none : t = postDropped .displaced victim.payload (appendFrame p (removeFrame victim.ident s)) := by
        rw [lost]
        cases payload : victim.payload <;> rw [payload] at kind <;> simp [payloadKind] at kind <;> rfl
      rw [none]
      exact ⟨rfl, rfl, rfl, sending⟩
    · have unsent : t = updateOrder ⟨origin, seq⟩ (fun o => { o with vote := .unsent })
          (postDropped .displaced victim.payload (appendFrame p (removeFrame victim.ident s))) := by
        rw [lost, vote]; rfl
      rw [unsent]
      refine ⟨rfl, rfl, rfl, ?_⟩
      rw [liveOrders_updateOrder]
      simp only [beq_iff_eq]; rfl
    · have aborted := loseFrame_propose
        (s := postDropped .displaced victim.payload (appendFrame p (removeFrame victim.ident s))) found state same mask tone mode
      rw [← propose, ← lost] at aborted
      obtain ⟨-, rfl⟩ := ballotWithSeq_some found
      rw [aborted]
      refine ⟨liveOrders_ownOrderGone .., openBallots_ownOrderGone .., ?_, rfl⟩
      refine List.filter_congr fun e _ => ?_
      have transmits : inTransmission (freeBallot b.seq (removeOrder (ownId s b.seq)
          (postDropped .displaced victim.payload (appendFrame p (removeFrame victim.ident s))))) e = inTransmission s e :=
        inTransmission_congr sending e
      refine (congrArg (fun c => !(frameOrderId (ownNumber s) e.payload == some (ownId s b.seq) && !c)) transmits).trans ?_
      cases inTransmission s e <;> simp [bne]
    · have aborted := loseFrame_commit
        (s := postDropped .displaced victim.payload (appendFrame p (removeFrame victim.ident s))) found state same
      rw [← commit, ← lost] at aborted
      obtain ⟨-, rfl⟩ := ballotWithSeq_some found
      obtain ⟨orders, ballots⟩ := ownGone_abortWith 7 b .commitLost (ownNumber s)
        (postDropped .displaced victim.payload (appendFrame p (removeFrame victim.ident s)))
      rw [aborted]
      refine ⟨orders, ballots, fun empty enabled => abortWith_notice 7 b .commitLost (ownNumber s) _ ?_ enabled⟩
      exact (post_notices_length _ (appendFrame p (removeFrame victim.ident s))).trans (by
        show s.monitor.notices.length + 1 ≤ 6
        omega)
  · intro t
    have top : ∀ x ∈ s.queue.entries, kindCode (payloadKind x.payload) ≤ kindCode (payloadKind victim.payload) := fun x hx => by
      by_cases same : x.ident = victim.ident
      · rw [entry_of_ident limits held hx same]
      · exact (others x hx same).le
    have highest := highestCode_eq held top
    rcases offerWith_full loseFrame fresh full.ge (highest ▸ less) with ⟨other, among, -, code, waits, -⟩ | ⟨a', e, -, -, there, -, -, taken⟩
    · by_cases same : other.ident = victim.ident
      · simp [inTransmission, sending, ident, displaced, same] at waits
      · exact absurd (code.trans highest) (others other among same).ne
    · obtain rfl : a = a' := Option.some.inj (sending.symm.trans there)
      rw [show t = _ from taken, ident]
      exact ⟨rfl, (forgetAttempts_sending ..), rfl, rfl, rfl, rfl, rfl⟩

end Sys2Proof.Machine
end
section
/-! A withdrawal from FORMING, ARRIVING or MEMBER: the ORIGIN_LEAVING ABORTs of the open ballots, and the LEAVE after them
(R26, R116, R118). -/

namespace Sys2Proof.Machine

/-! ### The ORIGIN_LEAVING ABORTs -/

/-- The ABORT that a withdrawal queues for a ballot. -/
def leavingAbort (own : StationNo) (b : Ballot) : Payload := .abort b.seq b.target .originLeaving own

/-- How many held frames are ABORTs. -/
def abortCount (s : State) : Nat := (s.queue.entries.filter fun e => payloadKind e.payload == .abort).length

/-- How many held frames only a withdrawal queues. -/
def leavingCount (s : State) : Nat := (s.queue.entries.filter fun e => isLeavingFrame e.payload).length

/-- What the ABORTs offered for the ballots `done` have made of the state `s`. -/
structure AbortsOffered (own : StationNo) (s : State) (done : List Ballot) (t : State) : Prop where
  limits : QueueInLimits t
  state : t.membership.state = .leaving
  frames : ∀ e ∈ t.queue.entries, e ∈ s.queue.entries ∨ ∃ b ∈ done, e.payload = leavingAbort own b
  onBus : ∀ e ∈ t.queue.entries, inTransmission t e = true → e ∈ s.queue.entries ∧ inTransmission s e = true
  aborts : abortCount t ≤ abortCount s + done.length
  leaving : leavingCount t ≤ leavingCount s + done.length
  taken : abortCount s + done.length ≤ 8 → ∀ b ∈ done, ∃ e ∈ t.queue.entries, e.payload = leavingAbort own b
  notices : s.monitor.notices <+: t.monitor.notices ∧ t.monitor.notices.length ≤ s.monitor.notices.length + done.length
  tallies : t.monitor.tallies = s.monitor.tallies

theorem abortsOffered_nil (own : StationNo) {s : State} (limits : QueueInLimits s) (state : s.membership.state = .leaving) :
    AbortsOffered own s [] s :=
  ⟨limits, state, fun _ he => .inl he, fun _ he sent => ⟨he, sent⟩, le_rfl, le_rfl, fun _ _ hb => absurd hb List.not_mem_nil,
    ⟨List.prefix_refl _, le_rfl⟩, rfl⟩

theorem post_tallies (r : Report) (s : State) : (post r s).monitor.tallies = s.monitor.tallies := by
  show (postNotice _ _ _).tallies = _
  rcases postNotice_cases s.profile.noticeMask ⟨r, s.timer.grid.map (·.counter)⟩ s.monitor with same | ⟨-, queued⟩ | full
  · rw [same]
  · rw [queued]
  · rw [full]

theorem length_filter_append_le (p : QueueEntry → Bool) (l : List QueueEntry) (e : QueueEntry) (n : Nat)
    (h : (l.filter p).length ≤ n) : ((l ++ [e]).filter p).length ≤ n + 1 := by
  rw [List.filter_append, List.length_append]
  have : ([e].filter p).length ≤ 1 := List.length_filter_le ..
  omega

/-- A frame new in a queue within its limits is not in transmission. -/
theorem inTransmission_new {s : State} (limits : QueueInLimits s) (p : Payload) :
    inTransmission s ⟨s.queue.nextIdent, s.queue.nextIdent, p⟩ = false := by
  obtain ⟨-, -, -, attempt, -⟩ := limits
  cases sending : s.bus.sending with
  | none => exact inTransmission_of_idle sending _
  | some a =>
    have := attempt a sending
    simp [inTransmission, sending, this.ne]

/-- One more ABORT is taken: the frames `u` holds are some of those of `t`. -/
theorem AbortsOffered.append {own : StationNo} {s t u : State} {done : List Ballot} (h : AbortsOffered own s done t) (b : Ballot)
    (limits : QueueInLimits u) (room : u.queue.entries.length < 8) (fewer : ∀ e ∈ u.queue.entries, e ∈ t.queue.entries)
    (abortsStay : ∀ e ∈ t.queue.entries, payloadKind e.payload = .abort → e ∈ u.queue.entries)
    (counts : abortCount u ≤ abortCount t ∧ leavingCount u ≤ leavingCount t)
    (onBus : ∀ e ∈ u.queue.entries, inTransmission u e = true → inTransmission t e = true)
    (state : u.membership = t.membership) (notices : t.monitor.notices <+: u.monitor.notices ∧
      u.monitor.notices.length ≤ t.monitor.notices.length + 1) (tallies : u.monitor.tallies = t.monitor.tallies) :
    AbortsOffered own s (done ++ [b]) (appendFrame (leavingAbort own b) u) := by
  have leaving : u.membership.state = .leaving := state ▸ h.state
  refine ⟨queueInLimits_append _ u room (fun e _ => rfl) (fun _ => leaving) limits, leaving, fun e he => ?_,
    fun e he sent => ?_, ?_, ?_, fun few x hx => ?_, ⟨h.notices.1.trans notices.1, ?_⟩, tallies.trans h.tallies⟩
  · rcases List.mem_append.mp he with old | new
    · rcases h.frames e (fewer e old) with start | ⟨x, hx, payload⟩
      · exact .inl start
      · exact .inr ⟨x, List.mem_append_left _ hx, payload⟩
    · exact .inr ⟨b, by simp, by rw [List.mem_singleton.mp new]⟩
  · rcases List.mem_append.mp he with old | new
    · exact h.onBus e (fewer e old) (onBus e old sent)
    · rw [List.mem_singleton.mp new] at sent
      exact absurd ((inTransmission_new limits (leavingAbort own b)).symm.trans sent) Bool.false_ne_true
  · rw [List.length_append]
    exact length_filter_append_le _ _ _ _ (counts.1.trans h.aborts)
  · rw [List.length_append]
    exact length_filter_append_le _ _ _ _ (counts.2.trans h.leaving)
  · rw [List.length_append] at few
    rcases List.mem_append.mp hx with old | new
    · obtain ⟨e, he, payload⟩ := h.taken (by omega) x old
      exact ⟨e, List.mem_append_left _ (abortsStay e he (by rw [payload]; rfl)), payload⟩
    · rw [List.mem_singleton.mp new]
      exact ⟨_, List.mem_append_right _ (List.mem_singleton.mpr rfl), rfl⟩
  · rw [List.length_append]
    have := h.notices.2
    show u.monitor.notices.length ≤ _ + (_ + 1)
    omega

/-- The frame `gone` leaves a queue of ABORTs and others. -/
theorem count_removeFrame_le (p : QueueEntry → Bool) (ident : Nat) (s : State) :
    ((removeFrame ident s).queue.entries.filter p).length ≤ (s.queue.entries.filter p).length :=
  (List.filter_sublist.filter p).length_le

theorem queueInLimits_removeFrame (ident : Nat) {s : State} (h : QueueInLimits s) : QueueInLimits (removeFrame ident s) :=
  queueInLimits_fewer (s := s) List.filter_sublist rfl (forgetAttempts_sending ..) .inl h

theorem length_removeFrame_lt {s : State} {e : QueueEntry} (held : e ∈ s.queue.entries) :
    (removeFrame e.ident s).queue.entries.length < s.queue.entries.length :=
  List.length_filter_lt_length_iff_exists.mpr ⟨e, held, by simp⟩

/-- One ABORT more of a withdrawal is taken, displaces another frame or is refused. -/
theorem AbortsOffered.step {own : StationNo} {s t : State} {done : List Ballot} (h : AbortsOffered own s done t) (b : Ballot) :
    AbortsOffered own s (done ++ [b]) (offerWith (fun _ u => u) (leavingAbort own b) t) := by
  have places := h.limits.1
  have fresh : ∀ e ∈ t.queue.entries, sameLimit (leavingAbort own b) e.payload = false := fun _ _ => rfl
  rcases Nat.lt_or_ge t.queue.entries.length 8 with room | full
  · rw [offerWith_room _ fresh room]
    exact h.append b h.limits room (fun _ he => he) (fun _ he _ => he) ⟨le_rfl, le_rfl⟩ (fun _ _ sent => sent) rfl
      ⟨List.prefix_refl _, Nat.le_succ _⟩ rfl
  · have full : t.queue.entries.length = 8 := le_antisymm places full
    by_cases urgent : ∀ e ∈ t.queue.entries, kindCode (payloadKind e.payload) ≤ kindCode .abort
    · rw [offerWith_refused _ fresh full urgent]
      have all : abortCount t = 8 := by
        refine (congrArg List.length (List.filter_eq_self.mpr fun e he => ?_)).trans full
        have := urgent e he
        by_contra other
        exact absurd this (Nat.not_le.mpr (code_of_kind_ne_abort fun abort => other (by rw [abort]; rfl)))
      have aborts := h.aborts
      refine ⟨h.limits, h.state, fun e he => ?_, h.onBus, ?_, ?_, fun few => ?_, ⟨h.notices.1.trans (post_notices_isPrefix _ _), ?_⟩,
        (post_tallies ..).trans h.tallies⟩
      · exact (h.frames e he).imp_right fun ⟨x, hx, payload⟩ => ⟨x, List.mem_append_left _ hx, payload⟩
      · exact h.aborts.trans (by rw [List.length_append]; omega)
      · exact h.leaving.trans (by rw [List.length_append]; omega)
      · rw [List.length_append, List.length_singleton] at few; omega
      · have notices := h.notices.2
        have := post_notices_length (.frameDropped .refused (payloadKind (leavingAbort own b))
          (frameOrderId (ownNumber t) (leavingAbort own b))) t
        rw [List.length_append]
        exact this.trans (by simp only [List.length_singleton]; omega)
    · push Not at urgent
      obtain ⟨e, he, code⟩ := urgent
      have less : kindCode (payloadKind (leavingAbort own b)) < highestCode t := lt_of_lt_of_le code (le_highestCode he)
      have stays {x : QueueEntry} (hx : x ∈ t.queue.entries) (top : kindCode (payloadKind x.payload) = highestCode t) :
          ∀ y ∈ t.queue.entries, payloadKind y.payload = .abort → y.ident ≠ x.ident := fun y hy abort same => by
        rw [entry_of_ident h.limits hx hy same] at abort
        rw [abort] at top
        exact absurd top less.ne
      rcases offerWith_full (fun _ u => u) fresh full.ge less with ⟨victim, held, -, top, -, displaced⟩ | ⟨a, x, held, -, sending, ident, top, displaced⟩
      · rw [displaced]
        have dropped := h.append b (u := postDropped .displaced victim.payload (removeFrame victim.ident t))
          (queueInLimits_removeFrame victim.ident h.limits) (by rw [← full]; exact length_removeFrame_lt held)
          (fun e he => List.mem_of_mem_filter he)
          (fun e he abort => List.mem_filter.mpr ⟨he, by simpa using stays held top e he abort⟩)
          ⟨count_removeFrame_le .., count_removeFrame_le ..⟩
          (fun e _ sent => (inTransmission_congr (forgetAttempts_sending ..) e).symm.trans sent) rfl
          ⟨post_notices_isPrefix _ (removeFrame victim.ident t), post_notices_length _ (removeFrame victim.ident t)⟩
          (post_tallies _ (removeFrame victim.ident t))
        exact dropped
      · rw [displaced]
        let marked : State := { t with bus := { t.bus with sending := some { a with displaced := true } } }
        have markedLimits : QueueInLimits marked := by
          obtain ⟨places, apart, idents, attempt, frames⟩ := h.limits
          refine ⟨places, apart, idents, fun x hx => ?_, frames⟩
          obtain rfl := Option.some.inj hx
          exact attempt a sending
        have taken := h.append b (u := removeFrame x.ident marked) (queueInLimits_removeFrame x.ident markedLimits)
          (by rw [← full]; exact length_removeFrame_lt (s := marked) held)
          (fun e he => List.mem_of_mem_filter he)
          (fun e he abort => List.mem_filter.mpr ⟨he, by simpa using stays held top e he abort⟩)
          ⟨count_removeFrame_le _ _ marked, count_removeFrame_le _ _ marked⟩
          (fun e _ sent => by
            rw [inTransmission_congr (s := marked) (forgetAttempts_sending ..)] at sent
            simp [inTransmission, marked] at sent) rfl ⟨List.prefix_refl _, Nat.le_succ _⟩ rfl
        rw [ident] at taken
        exact taken

theorem abortsOffered_offerLeaving {own : StationNo} {s : State} (l : List Ballot) {t : State} {done : List Ballot}
    (h : AbortsOffered own s done t) : AbortsOffered own s (done ++ l) (offerLeaving own l t) := by
  induction l generalizing t done with
  | nil => rw [List.append_nil]; exact h
  | cons b l ih =>
    have := ih (h.step b)
    rw [List.append_assoc] at this
    exact this

/-! ### The ORDER_ABORTED notices -/

theorem postLeaving_eq (own : StationNo) (l : List Ballot) (s : State) :
    postLeaving own l s = { s with monitor := (postLeaving own l s).monitor } := by
  induction l generalizing s with
  | nil => rfl
  | cons b l ih =>
    show postLeaving own l (post _ s) = { s with monitor := (postLeaving own l (post _ s)).monitor }
    rw [ih]; rfl

theorem postLeaving_notices (own : StationNo) (l : List Ballot) (s : State) :
    s.monitor.notices <+: (postLeaving own l s).monitor.notices := by
  induction l generalizing s with
  | nil => exact List.prefix_refl _
  | cons b l ih => exact (post_notices_isPrefix _ s).trans (ih _)

theorem postLeaving_tallies (own : StationNo) (l : List Ballot) (s : State) :
    (postLeaving own l s).monitor.tallies = s.monitor.tallies := by
  induction l generalizing s with
  | nil => rfl
  | cons b l ih => exact (ih _).trans (post_tallies _ s)

theorem mem_postLeaving {own : StationNo} (l : List Ballot) {s : State} (room : s.monitor.notices.length + l.length ≤ 16)
    (enabled : s.profile.noticeMask.getLsbD 13 = true) (grid : s.timer.grid = none) {b : Ballot} (hb : b ∈ l) :
    ⟨.orderAborted own ⟨own, b.seq⟩ .originLeaving, none⟩ ∈ (postLeaving own l s).monitor.notices := by
  induction l generalizing s with
  | nil => cases hb
  | cons x l ih =>
    rw [List.length_cons] at room
    rcases List.mem_cons.mp hb with rfl | hb
    · have queued := post_mem (r := .orderAborted own ⟨own, b.seq⟩ .originLeaving) (s := s) (by omega) enabled
      rw [grid] at queued
      exact (postLeaving_notices own l _).subset queued
    · have := post_notices_length (.orderAborted own ⟨own, x.seq⟩ .originLeaving) s
      exact ih (s := post _ s) (by omega) enabled grid hb

/-! ### The withdrawal -/

/-- The station is LEAVING, without orders: what a withdrawal offers its frames in. -/
def leftCohort (cause : Cause) (d : Destination) (s : State) : State :=
  { enterLeaving cause d (withdrawNotice cause s) with
    orders := ordersCleared (enterLeaving cause d (withdrawNotice cause s)).orders }

/-- The ORIGIN_LEAVING ABORTs are offered, and ORDER_ABORTED is posted for each. -/
def ordersLeft (cause : Cause) (d : Destination) (s : State) : State :=
  postLeaving (ownNumber s) (ballotsLeft s) (offerLeaving (ownNumber s) (ballotsLeft s) (leftCohort cause d s))

/-- The destination of a withdrawal (R115, R118). -/
def withdrawDestination (cause : Cause) (s : State) : Destination :=
  if rejoinLimited s.profile.rejoinLimit cause s.membership.withdrawals then .idle else causeDestination cause

theorem withdraw_unfold {cause : Cause} {s : State}
    (h : s.membership.state = .forming ∨ s.membership.state = .arriving ∨ s.membership.state = .member) :
    withdraw cause s = offer (.leave cause) (purgeForLeaving (ordersLeft cause (withdrawDestination cause s) s)) := by
  have can : withdrawable s.membership.state = true := by rcases h with h | h | h <;> rw [h] <;> rfl
  have aligned : s.membership.state ≠ .aligning := by rcases h with h | h | h <;> rw [h] <;> decide
  unfold withdraw
  rw [if_pos can]
  dsimp only
  rw [if_neg aligned, abandonOrders_eq]
  rfl

theorem queueInLimits_leftCohort (cause : Cause) (d : Destination) {s : State} (h : QueueInLimits s) :
    QueueInLimits (leftCohort cause d s) :=
  ⟨h.1, h.2.1, h.2.2.1, h.2.2.2.1, fun notLeaving => absurd rfl notLeaving⟩

theorem ballotsLeft_length_le (s : State) : (ballotsLeft s).length ≤ 4 :=
  (List.length_filter_le ..).trans (openBallots_length_le s)

theorem abortsOffered_leftCohort (cause : Cause) (d : Destination) {s : State} (h : QueueInLimits s) :
    AbortsOffered (ownNumber s) (leftCohort cause d s) (ballotsLeft s)
      (offerLeaving (ownNumber s) (ballotsLeft s) (leftCohort cause d s)) :=
  abortsOffered_offerLeaving (ballotsLeft s) (abortsOffered_nil _ (queueInLimits_leftCohort cause d h) rfl)

/-- At most one held frame is in transmission. -/
theorem length_inTransmission_le {s : State} (limits : QueueInLimits s) (l : List QueueEntry) (sub : l.Sublist s.queue.entries)
    (sent : ∀ e ∈ l, inTransmission s e = true) : l.length ≤ 1 := by
  match l with
  | [] => exact Nat.zero_le _
  | [_] => exact le_rfl
  | e :: x :: l =>
    obtain ⟨-, apart, -⟩ := limits
    have differ := ((apart.imp fun ⟨_, h, _⟩ => h).sublist sub)
    have differs : e.ident ≠ x.ident := (List.pairwise_cons.mp differ).1 x (by simp)
    have first := sent e (by simp)
    have second := sent x (by simp)
    cases sending : s.bus.sending with
    | none => rw [inTransmission_of_idle sending] at first; cases first
    | some a =>
      simp only [inTransmission, sending, Option.any_some, Bool.and_eq_true, beq_iff_eq] at first second
      exact absurd (first.1.symm.trans second.1) differs

theorem mem_purgeForLeaving {s : State} {e : QueueEntry} (h : e ∈ (purgeForLeaving s).queue.entries) :
    e ∈ s.queue.entries ∧ (isLeavingFrame e.payload = true ∨ inTransmission s e = true) := by
  obtain ⟨held, kept⟩ := List.mem_filter.mp h
  refine ⟨held, or_iff_not_imp_right.mpr fun waits => ?_⟩
  rw [Bool.not_eq_true] at waits
  obtain ⟨ident, age, payload⟩ := e
  rw [waits] at kept
  cases payload with
  | abort seq target reason refuser => cases reason <;> first | rfl | cases kept
  | _ => cases kept

theorem leavingAbort_stays {s : State} {e : QueueEntry} {own : StationNo} {b : Ballot} (held : e ∈ s.queue.entries)
    (payload : e.payload = leavingAbort own b) : e ∈ (purgeForLeaving s).queue.entries := by
  refine List.mem_filter.mpr ⟨held, ?_⟩
  simp only [payload, leavingAbort]
  rfl

section
variable {cause : Cause} {s : State} (limits : QueueInLimits s)
  (active : s.membership.state = .forming ∨ s.membership.state = .arriving ∨ s.membership.state = .member)

theorem not_leaving_of_active
    (active : s.membership.state = .forming ∨ s.membership.state = .arriving ∨ s.membership.state = .member) :
    s.membership.state ≠ .leaving := by
  rcases active with h | h | h <;> rw [h] <;> decide

/-- What a withdrawal leaves in the queue before the LEAVE. -/
def beforeLeave (cause : Cause) (s : State) : State := purgeForLeaving (ordersLeft cause (withdrawDestination cause s) s)

theorem ordersLeft_eq (cause : Cause) (d : Destination) (s : State) : ordersLeft cause d s =
    { offerLeaving (ownNumber s) (ballotsLeft s) (leftCohort cause d s) with monitor := (ordersLeft cause d s).monitor } :=
  postLeaving_eq ..

include limits active

theorem mem_beforeLeave {e : QueueEntry} (h : e ∈ (beforeLeave cause s).queue.entries) :
    (∃ b ∈ ballotsLeft s, e.payload = leavingAbort (ownNumber s) b) ∨ (e ∈ s.queue.entries ∧ inTransmission s e = true) := by
  obtain ⟨held, kept⟩ := mem_purgeForLeaving h
  rw [ordersLeft_eq] at held kept
  have offered := abortsOffered_leftCohort cause (withdrawDestination cause s) limits
  rcases kept with leaving | sent
  · refine .inl ((offered.frames e held).resolve_left fun start => ?_)
    rw [limits.2.2.2.2 (not_leaving_of_active active) e start] at leaving; cases leaving
  · exact .inr (offered.onBus e held sent)

theorem length_beforeLeave_le : (beforeLeave cause s).queue.entries.length ≤ 5 := by
  have offered := abortsOffered_leftCohort cause (withdrawDestination cause s) limits
  have ballots := ballotsLeft_length_le s
  have started : leavingCount (leftCohort cause (withdrawDestination cause s) s) = 0 := by
    refine List.length_eq_zero_iff.mpr (List.filter_eq_nil_iff.mpr fun e he => ?_)
    rw [limits.2.2.2.2 (not_leaving_of_active active) e he]; exact Bool.false_ne_true
  have entries : (beforeLeave cause s).queue.entries.Sublist
      (offerLeaving (ownNumber s) (ballotsLeft s) (leftCohort cause (withdrawDestination cause s) s)).queue.entries := by
    rw [beforeLeave, ordersLeft_eq]; exact List.filter_sublist
  have frames := (entries.filter fun e => isLeavingFrame e.payload).length_le.trans offered.leaving
  have sent := length_inTransmission_le offered.limits
    ((beforeLeave cause s).queue.entries.filter fun e => !isLeavingFrame e.payload) (List.filter_sublist.trans entries) fun e he => by
      obtain ⟨held, other⟩ := List.mem_filter.mp he
      have kept := (mem_purgeForLeaving held).2
      rw [ordersLeft_eq] at kept
      exact kept.resolve_left (by simpa using other)
  rw [List.length_eq_length_filter_add fun e : QueueEntry => isLeavingFrame e.payload]
  omega

/-- With at most one frame in transmission and four ABORTs there is room for the LEAVE. -/
theorem withdraw_eq : withdraw cause s = appendFrame (.leave cause) (beforeLeave cause s) := by
  rw [withdraw_unfold active]
  refine offer_room _ _ (fun e he => ?_) (lt_of_le_of_lt (length_beforeLeave_le limits active) (by decide))
  rcases mem_beforeLeave limits active he with ⟨b, -, payload⟩ | ⟨held, -⟩
  · rw [payload]; rfl
  · have frame := limits.2.2.2.2 (not_leaving_of_active active) e held
    cases payload : e.payload <;> rw [payload] at frame <;> first | rfl | cases frame

end

theorem offerQuietly_eq (p : Payload) (s : State) :
    ∃ q b m, offerWith (fun _ u => u) p s = { s with queue := q, bus := b, monitor := m } := by
  unfold offerWith
  split
  · split <;> exact ⟨_, _, _, rfl⟩
  · split
    · exact ⟨_, _, _, rfl⟩
    · split
      · split
        · exact ⟨_, _, _, rfl⟩
        · split <;> exact ⟨_, _, _, rfl⟩
      · exact ⟨_, _, _, rfl⟩

theorem offerLeaving_eq (own : StationNo) (l : List Ballot) (s : State) :
    ∃ q b m, offerLeaving own l s = { s with queue := q, bus := b, monitor := m } := by
  induction l generalizing s with
  | nil => exact ⟨s.queue, s.bus, s.monitor, rfl⟩
  | cons x l ih =>
    obtain ⟨q, b, m, first⟩ := offerQuietly_eq (.abort x.seq x.target .originLeaving own) s
    obtain ⟨q', b', m', rest⟩ := ih (offerWith (fun _ u => u) (.abort x.seq x.target .originLeaving own) s)
    exact ⟨q', b', m', rest.trans (by rw [first])⟩

/-- Steps 3 and 5 of a withdrawal touch no more than the queue, the Bus Interface and the Monitor. -/
theorem beforeLeave_eq (cause : Cause) (s : State) : ∃ q b m, beforeLeave cause s =
    { leftCohort cause (withdrawDestination cause s) s with queue := q, bus := b, monitor := m } := by
  obtain ⟨q, b, m, offered⟩ := offerLeaving_eq (ownNumber s) (ballotsLeft s) (leftCohort cause (withdrawDestination cause s) s)
  refine ⟨(beforeLeave cause s).queue, (beforeLeave cause s).bus, (beforeLeave cause s).monitor, ?_⟩
  rw [beforeLeave, ordersLeft_eq, offered]
  rfl

theorem countedWithdrawals_eq (cause : Cause) (count : Nat) : countedWithdrawals cause count =
    if cause = .holdFault ∨ cause = .tally then min (count + 1) 15 else count := by
  cases cause <;> rfl

theorem rejoinLimited_iff (limit : Nat) (cause : Cause) (count : Nat) : rejoinLimited limit cause count = true ↔
    (cause = .holdFault ∨ cause = .tally) ∧ limit ≠ 0 ∧ limit ≤ countedWithdrawals cause count := by
  cases cause <;> simp [rejoinLimited, causeDestination]

theorem withdrawDestination_eq (cause : Cause) (s : State) : withdrawDestination cause s =
    if (cause = .holdFault ∨ cause = .tally) ∧ ¬ ((cause = .holdFault ∨ cause = .tally) ∧ s.profile.rejoinLimit ≠ 0 ∧
      s.profile.rejoinLimit ≤ countedWithdrawals cause s.membership.withdrawals) then .listen else .idle := by
  unfold withdrawDestination
  by_cases limited : rejoinLimited s.profile.rejoinLimit cause s.membership.withdrawals = true
  · rw [if_pos limited, if_neg fun h => h.2 ((rejoinLimited_iff ..).mp limited)]
  · rw [if_neg limited]
    rw [rejoinLimited_iff] at limited
    by_cases listen : cause = .holdFault ∨ cause = .tally
    · rw [if_pos ⟨listen, limited⟩]
      rcases listen with rfl | rfl <;> rfl
    · rw [if_neg fun h => listen h.1]
      cases cause <;> simp at listen <;> rfl

/-- Settles O31. -/
theorem withdrawalLeavesTheCohort : Obligations.WithdrawalLeavesTheCohort := by
  intro cause s limits tables active toListen count limited destination t
  have eq : t = appendFrame (.leave cause) (beforeLeave cause s) := withdraw_eq limits active
  have offered := abortsOffered_leftCohort cause (withdrawDestination cause s) limits
  have counted : countedWithdrawals cause s.membership.withdrawals = count := countedWithdrawals_eq ..
  have isLimited : rejoinLimited s.profile.rejoinLimit cause s.membership.withdrawals = decide limited := by
    refine Bool.eq_iff_iff.mpr ((rejoinLimited_iff ..).trans ?_)
    rw [counted, decide_eq_true_iff]
  have goes : withdrawDestination cause s = destination := (withdrawDestination_eq cause s).trans (by rw [counted])
  have noticed : s.monitor.notices.length < 16 → s.profile.noticeMask.getLsbD 4 = true →
      (withdrawNotice cause s).monitor.notices = s.monitor.notices ++
        [⟨.withdrawn cause destination (decide limited), s.timer.grid.map fun g => g.counter⟩] := fun room enabled => by
    have queued := congrArg Monitor.notices (postNotice_room (n := ⟨.withdrawn cause (withdrawDestination cause s)
      (rejoinLimited s.profile.rejoinLimit cause s.membership.withdrawals), s.timer.grid.map (·.counter)⟩) enabled room)
    rw [← goes, ← isLimited]
    exact queued
  have grown : (withdrawNotice cause s).monitor.notices.length ≤ s.monitor.notices.length + 1 := post_notices_length _ { s with
    membership := { s.membership with withdrawals := countedWithdrawals cause s.membership.withdrawals } }
  have left : ∀ x ∈ openBallots s, commitOnBus s x.seq x.target = false → x ∈ ballotsLeft s := fun x hx free =>
    List.mem_filter.mpr ⟨hx, by simp [free]⟩
  obtain ⟨q, b, m, base⟩ := beforeLeave_eq cause s
  have entries : t.queue.entries = (beforeLeave cause s).queue.entries ++
      [⟨(beforeLeave cause s).queue.nextIdent, (beforeLeave cause s).queue.nextIdent, .leave cause⟩] := by rw [eq]; rfl
  have monitor : t.monitor = (ordersLeft cause (withdrawDestination cause s) s).monitor := by rw [eq]; rfl
  have shape : t = { leftCohort cause (withdrawDestination cause s) s with queue := t.queue, bus := b, monitor := t.monitor } := by
    rw [eq, base]; rfl
  rw [goes] at shape
  refine ⟨by rw [shape]; rfl, by rw [shape]; rfl, by rw [shape]; exact counted, by rw [shape]; rfl, fun n => ?_, ?_, by rw [shape]; rfl,
    by rw [shape]; rfl, by rw [shape]; rfl, ?_, ?_, by rw [shape]; rfl, by rw [shape]; rfl, fun e he => ?_, ?_, fun x hx free => ⟨fun few => ?_, fun few enabled => ?_⟩,
    fun e he seq target refuser payload => ?_, fun room enabled => ?_, ?_, by rw [shape]; rfl, by rw [shape]; rfl, by rw [shape]; rfl⟩
  · rw [shape]; exact Table.get_fill ..
  · rw [shape]; exact formationSize_empty
  · rw [shape]; exact liveOrders_cleared _ _ rfl
  · rw [shape]; exact openBallots_cleared _ _ rfl
  · rw [entries] at he
    rcases List.mem_append.mp he with held | new
    · exact (mem_beforeLeave limits active held).imp_left fun ⟨_, _, payload⟩ => by rw [payload]; rfl
    · rw [List.mem_singleton.mp new]; exact .inl rfl
  · rw [entries]; exact ⟨_, List.mem_append_right _ (List.mem_singleton.mpr rfl), rfl⟩
  · have ballots := ballotsLeft_length_le s
    have few : abortCount (leftCohort cause (withdrawDestination cause s) s) ≤ 4 := few
    obtain ⟨e, held, payload⟩ := offered.taken (by omega) x (left x hx free)
    refine ⟨e, ?_, payload⟩
    rw [entries]
    exact List.mem_append_left _ (leavingAbort_stays (by rw [ordersLeft_eq]; exact held) payload)
  · have ballots := ballotsLeft_length_le s
    have offeredNotices := offered.notices.2
    have start : (leftCohort cause (withdrawDestination cause s) s).monitor = (withdrawNotice cause s).monitor := rfl
    rw [start] at offeredNotices
    obtain ⟨q, b, m, after⟩ := offerLeaving_eq (ownNumber s) (ballotsLeft s) (leftCohort cause (withdrawDestination cause s) s)
    rw [monitor]
    refine mem_postLeaving (ballotsLeft s) (by omega) ?_ ?_ (left x hx free)
    · rw [after]; exact enabled
    · rw [after]; rfl
  · rw [entries] at he
    rcases List.mem_append.mp he with held | new
    · rcases mem_beforeLeave limits active held with ⟨x, hx, own⟩ | ⟨start, -⟩
      · obtain ⟨isOpen, free⟩ := List.mem_filter.mp hx
        obtain ⟨rfl, rfl, -, rfl⟩ := Payload.abort.inj (own.symm.trans payload)
        exact ⟨rfl, x, isOpen, rfl, rfl, by simpa using free⟩
      · have frame := limits.2.2.2.2 (not_leaving_of_active active) e start
        rw [payload] at frame; cases frame
    · rw [List.mem_singleton.mp new] at payload; cases payload
  · have first : (withdrawNotice cause s).monitor.notices <+: t.monitor.notices := by
      rw [monitor]
      exact offered.notices.1.trans (postLeaving_notices ..)
    obtain ⟨rest, eq⟩ := first
    rw [← eq, noticed room enabled]
    simp
  · rw [monitor]
    exact (postLeaving_tallies ..).trans (offered.tallies.trans (post_tallies _ { s with
      membership := { s.membership with withdrawals := countedWithdrawals cause s.membership.withdrawals } }))

end Sys2Proof.Machine
end
section
/-! The veto sample at an ARRIVING station: admission on the lead of the first kept mark reading (R45, R46, R114). -/

namespace Sys2Proof.Machine

/-! ### What a tally and a notice read -/

/-- A tally reads the profile, the station state, the counter and the Monitor. -/
theorem countTally_congr (k : TallyKind) {s t : State} (profile : t.profile = s.profile)
    (state : t.membership.state = s.membership.state) (counter : t.timer.grid.map (·.counter) = s.timer.grid.map (·.counter))
    (monitor : t.monitor = s.monitor) :
    (countTally k t).1.monitor = (countTally k s).1.monitor ∧ (countTally k t).2 = (countTally k s).2 := by
  unfold countTally
  simp only [profile, state, monitor]
  split
  · split
    · simp [post, counter]
    · exact ⟨rfl, rfl⟩
  · exact ⟨monitor, rfl⟩

theorem post_monitor_congr (r : Report) {s t : State} (profile : t.profile = s.profile)
    (counter : t.timer.grid.map (·.counter) = s.timer.grid.map (·.counter)) (monitor : t.monitor = s.monitor) :
    (post r t).monitor = (post r s).monitor := by
  show postNotice _ _ _ = postNotice _ _ _
  rw [profile, counter, monitor]

theorem countTally_notAsked {k : TallyKind} {s : State} (h : tallyOf k s.monitor.tallies + 1 ≠ s.profile.threshold) :
    (countTally k s).2 = false := by
  by_cases counts : Tallies.Counts k s
  · rw [countTally_below counts h]
  · rw [countTally_stays counts]

/-- The Monitor after SKEW has been counted and SKEW_WIDE posted. -/
def skewMonitor (lead lag : Nat) (s : State) : Monitor := (post (.skewWide lead lag) (countTally .skew s).1).monitor

/-- The skew check of a reading that is kept after the order has been decided. -/
theorem skewChecked_eq {s t : State} (profile : t.profile = s.profile) (membership : t.membership = s.membership)
    (counter : t.timer.grid.map (·.counter) = s.timer.grid.map (·.counter)) (monitor : t.monitor = s.monitor)
    (mark : Epoch) (lead lag : Nat) (released : Option Nat) :
    skewChecked ⟨mark, lead, released, some lag⟩ t =
      if s.profile.skewWindow < lead + lag then
        withdrawIf (countTally .skew s).2 { readingKept ⟨mark, lead, released, some lag⟩ t with monitor := skewMonitor lead lag s }
      else readingKept ⟨mark, lead, released, some lag⟩ t := by
  obtain ⟨counted, asked⟩ := countTally_congr .skew (s := s) (t := readingKept ⟨mark, lead, released, some lag⟩ t) profile
    (congrArg Membership.state membership) counter monitor
  have posted : post (.skewWide lead lag) (countTally .skew (readingKept ⟨mark, lead, released, some lag⟩ t)).1 =
      { readingKept ⟨mark, lead, released, some lag⟩ t with monitor := skewMonitor lead lag s } := by
    have same := post_monitor_congr (.skewWide lead lag) (s := (countTally .skew s).1)
      (t := (countTally .skew (readingKept ⟨mark, lead, released, some lag⟩ t)).1)
      (by rw [countTally_profile, countTally_profile]; exact profile)
      (by rw [countTally_timer, countTally_timer]; exact counter) counted
    rw [skewMonitor, ← same, countTally_eq .skew (readingKept ⟨mark, lead, released, some lag⟩ t)]
    rfl
  unfold skewChecked
  rw [profile]
  refine ite_congr rfl (fun _ => ?_) fun _ => rfl
  rw [asked]
  exact congrArg (withdrawIf _) posted

/-! ### The HELLO of a new MEMBER -/

theorem sameLimit_hello_iff (state : HelloState) (group : Group) (digest : Digest) (p : Payload) :
    sameLimit (.hello state group digest) p = true ↔ payloadKind p = .hello := by
  cases p <;> simp [sameLimit, payloadKind]

theorem sameLimit_hello_false {state : HelloState} {group : Group} {digest : Digest} {p : Payload} (h : payloadKind p ≠ .hello) :
    sameLimit (.hello state group digest) p = false := by
  rw [← Bool.not_eq_true, sameLimit_hello_iff]; exact h

/-- In a queue within its limits there is one HELLO at most. -/
theorem hello_unique {s : State} (limits : QueueInLimits s) {e x : QueueEntry} (he : e ∈ s.queue.entries)
    (hx : x ∈ s.queue.entries) (kind : payloadKind e.payload = .hello) : x.ident = e.ident ↔ payloadKind x.payload = .hello := by
  refine ⟨fun same => by rw [entry_of_ident limits he hx same]; exact kind, fun hello => ?_⟩
  have first := find_sameLimit (p := .hello .forming 0 0) limits he ((sameLimit_hello_iff ..).mpr kind)
  rw [find_sameLimit limits hx ((sameLimit_hello_iff ..).mpr hello)] at first
  rw [Option.some.inj first]

/-- What is left of an offered HELLO: refused, replacing the one that waits, or taken as a new frame. -/
theorem offer_hello {s : State} (limits : QueueInLimits s) (state : HelloState) (group : Group) (digest : Digest) :
    ((∃ e ∈ s.queue.entries, payloadKind e.payload = .hello ∧ inTransmission s e = true) ∨
        (s.queue.entries.length = 8 ∧ ∀ e ∈ s.queue.entries, kindCode (payloadKind e.payload) < kindCode .hello) →
      offer (.hello state group digest) s = post (.frameDropped .refused .hello none) s) ∧
    (∀ e ∈ s.queue.entries, payloadKind e.payload = .hello → inTransmission s e = false →
      offer (.hello state group digest) s = replaceFrame e (.hello state group digest) s) ∧
    (s.queue.entries.length < 8 → (∀ e ∈ s.queue.entries, payloadKind e.payload ≠ .hello) →
      offer (.hello state group digest) s = appendFrame (.hello state group digest) s) := by
  refine ⟨?_, fun e he kind waits => ?_, fun room fresh => offer_room _ _ (fun e he => sameLimit_hello_false (fresh e he)) room⟩
  · rintro (⟨e, he, kind, sent⟩ | ⟨full, urgent⟩)
    · exact (offerWith_found loseFrame limits he ((sameLimit_hello_iff ..).mpr kind)).trans (if_pos sent)
    · exact offerWith_refused loseFrame (fun e he => sameLimit_hello_false fun kind => by
        have := urgent e he; rw [kind] at this; exact absurd this (lt_irrefl _)) full fun e he => (urgent e he).le
  · exact (offerWith_found loseFrame limits he ((sameLimit_hello_iff ..).mpr kind)).trans (if_neg (by simp [waits]))

/-! ### Admission -/

/-- The station as it joins, once its HELLO has been offered (R114). -/
def joined (lead : Nat) (s : State) : State :=
  postIfLive .blank (post (.joined lead) { s with membership := { s.membership with quiet := 0 } })

/-- The station as a MEMBER that has not greeted yet. -/
def newMember (s : State) : State := { s with membership := { s.membership with state := .member, memberMarks := 0 } }

theorem becomeMember_within {lead : Nat} {s : State} (h : lead ≤ s.profile.skewWindow) :
    becomeMember lead s = joined lead (offer (ownHello .member s) (newMember s)) := if_pos h

theorem postIfLive_eq (before : OutputState) (s : State) : postIfLive before s = { s with
    monitor := if before ≠ .live ∧ outputState s = .live then (post (.live s.carrier.current) s).monitor else s.monitor } := by
  unfold postIfLive; split <;> rfl

theorem joined_eq (lead : Nat) (s : State) : joined lead s = { s with
    membership := { s.membership with quiet := 0 }, monitor := (joined lead s).monitor } := by
  rw [joined, postIfLive_eq]; rfl

theorem joined_monitor {lead : Nat} {s : State} (member : s.membership.state = .member) (counter : Option Epoch)
    (now : s.timer.grid.map (·.counter) = counter) : (joined lead s).monitor =
      if s.carrier.synced = true then postNotice s.profile.noticeMask ⟨.live s.carrier.current, counter⟩
        (postNotice s.profile.noticeMask ⟨.joined lead, counter⟩ s.monitor)
      else postNotice s.profile.noticeMask ⟨.joined lead, counter⟩ s.monitor := by
  subst now
  have shines : (OutputState.blank ≠ .live ∧ outputOf s.membership.state s.carrier.synced = .live) ↔ s.carrier.synced = true := by
    rw [member]
    cases s.carrier.synced <;> simp [outputOf]
  rw [joined, postIfLive_eq]
  by_cases synced : s.carrier.synced = true
  · rw [if_pos synced]; exact if_pos (shines.mpr synced)
  · rw [if_neg synced]; exact if_neg (mt shines.mp synced)

/-! ### The decision before it -/

/-- The veto sample has been taken and the order decided, which changed the Schedule alone. -/
def decidedState (g : Grid) (schedule : Table (Option Order) 16) (s : State) : State :=
  { sampled g s with orders := { s.orders with schedule := schedule } }

/-- A high line arms the order that is due, and then the mark reading is settled. -/
theorem exec_vetoSample_high {s : State} {g : Grid} (hg : s.timer.grid = some g)
    (reached : pointReached g (samplePhase s.profile) = true) (claim : s.timer.claims.veto = false) (distinct : ScheduleDistinct s) :
    ∃ schedule, exec (.vetoSample .high) s =
        .next (settleReading false (decidedState g schedule s)) ∧
      Table.held schedule = (liveOrders s).map (fun o => if o.target = g.counter + 1 then { o with armed := true } else o) ∧
      ((∀ o ∈ liveOrders s, o.target ≠ g.counter + 1) → schedule = s.orders.schedule) := by
  cases due : orderWithTarget s (g.counter + 1) with
  | none =>
    have clear := orderWithTarget_none.mp due
    refine ⟨s.orders.schedule, exec_vetoSample_clear hg reached due (.inl ⟨rfl, claim⟩), ?_, fun _ => rfl⟩
    exact (List.map_congr_left (g := id) fun o ho => if_neg (clear o ho)).trans (List.map_id _) |>.symm
  | some o =>
    obtain ⟨live, target⟩ := orderWithTarget_some due
    have armed : decideOrder .high o (sampled g s) = armOrder o (sampled g s) :=
      if_neg (by rw [show (sampled g s).timer.claims.veto = false from claim]; decide)
    refine ⟨(armOrder o (sampled g s)).orders.schedule, ?_, ?_, fun clear => absurd target (clear o live)⟩
    · rw [exec_vetoSample_due hg reached due (.inr claim), armed]; rfl
    · refine (liveOrders_updateOrder o.id _ (sampled g s)).trans (List.map_congr_left fun x hx => ?_)
      have same : x.id = o.id ↔ x.target = g.counter + 1 := by
        constructor
        · intro id
          have := orderWithId_eq distinct live
          rw [← id, orderWithId_eq distinct hx] at this
          rw [Option.some.inj this, target]
        · intro other
          have := orderWithTarget_eq distinct hx
          rw [other, due] at this
          rw [Option.some.inj this]
      simp only [beq_iff_eq, same]

/-- To take the veto sample and to veto the order that is due come to the same in either order. -/
theorem sampled_vetoOrder {s : State} {g : Grid} (hg : s.timer.grid = some g) (o : Order) (claimed : Bool) :
    sampled g (vetoOrder o claimed s) = vetoOrder o claimed (sampled g s) := by
  have retires : sampled g (retireOrder o.id s) = retireOrder o.id (sampled g s) := by
    unfold retireOrder
    dsimp only
    by_cases own : o.id.origin = ownNumber s
    · rw [if_pos own, if_pos (show o.id.origin = ownNumber (sampled g s) from own)]; rfl
    · rw [if_neg own, if_neg (show ¬ o.id.origin = ownNumber (sampled g s) from own)]; rfl
  have posts : sampled g (post (.orderVetoed o.id claimed) (retireOrder o.id s)) =
      post (.orderVetoed o.id claimed) (sampled g (retireOrder o.id s)) := by
    have same := post_monitor_congr (.orderVetoed o.id claimed) (s := retireOrder o.id s) (t := sampled g (retireOrder o.id s)) rfl
      (by rw [retireOrder_timer, hg]; rfl) rfl
    exact congrArg (fun m => ({ sampled g (retireOrder o.id s) with monitor := m } : State)) same.symm
  exact posts.trans (congrArg _ retires)

theorem queueInLimits_retireOrder (id : OrderId) {s : State} (h : QueueInLimits s) : QueueInLimits (retireOrder id s) := by
  unfold retireOrder
  refine queueInLimits_purgeOrder id ?_
  split <;> exact h

theorem enabled_all (r : Report) : (0x3FFFF : BitVec 18).getLsbD (reportCode r - 1) = true := by
  cases r <;> simp [reportCode]

/-- Settles O42. -/
theorem admissionOnTheLead : Obligations.AdmissionOnTheLead := by
  intro s g lead lag released hg phase point arriving leaving claim waits limits distinct wide checked hello refused
  have reached : pointReached g (samplePhase s.profile) = true := (pointReached_iff ..).mpr ⟨point, phase⟩
  obtain ⟨schedule, run, orders, untouched⟩ := exec_vetoSample_high hg reached claim distinct
  have now : (decidedState g schedule s).timer.grid.map (·.counter) = s.timer.grid.map (·.counter) := by rw [hg]; rfl
  have settles : settleReading false (decidedState g schedule s) =
      keepReading ⟨g.counter, lead, released, some lag⟩ (decidedState g schedule s) :=
    (settleReading_some (s := decidedState g schedule s) waits
      (nowEpoch_of_grid (g := { g with point := samplePhase s.profile }) rfl).symm false).trans (if_neg Bool.false_ne_true)
  have check := skewChecked_eq (s := s) (t := decidedState g schedule s) rfl rfl now rfl g.counter lead lag released
  rw [settles, keepReading_eq, check] at run
  let kept : State := { readingKept ⟨g.counter, lead, released, some lag⟩ (decidedState g schedule s) with monitor := checked }
  have calm : ¬ (wide ∧ (countTally .skew s).2 = true) → exec (.vetoSample .high) s = .next (becomeMember lead kept) := by
    intro quiet
    have inner : (if s.profile.skewWindow < lead + lag then withdrawIf (countTally .skew s).2
        { readingKept ⟨g.counter, lead, released, some lag⟩ (decidedState g schedule s) with monitor := skewMonitor lead lag s }
        else readingKept ⟨g.counter, lead, released, some lag⟩ (decidedState g schedule s)) = kept := by
      by_cases isWide : wide
      · have unasked : (countTally .skew s).2 = false := by
          rw [← Bool.not_eq_true]; exact fun asked => quiet ⟨isWide, asked⟩
        have same : checked = skewMonitor lead lag s := if_pos isWide
        rw [unasked]
        exact (if_pos isWide).trans (congrArg (fun m => ({ readingKept ⟨g.counter, lead, released, some lag⟩
          (decidedState g schedule s) with monitor := m } : State)) same.symm)
      · have same : checked = s.monitor := if_neg isWide
        exact (if_neg isWide).trans (congrArg (fun m => ({ readingKept ⟨g.counter, lead, released, some lag⟩
          (decidedState g schedule s) with monitor := m } : State)) same.symm)
    rw [inner, if_pos (show kept.membership.state = .arriving from arriving)] at run
    exact run
  have limitsKept : QueueInLimits kept := limits
  refine ⟨fun within quiet cases => ?_, fun isWide asked => ?_, fun beyond below => ?_, fun o live target => ?_⟩
  · have notLeaving : s.membership.state ≠ .leaving := by rw [arriving]; decide
    have limitsMember : QueueInLimits (newMember kept) :=
      ⟨limits.1, limits.2.1, limits.2.2.1, limits.2.2.2.1, fun _ => limits.2.2.2.2 notLeaving⟩
    obtain ⟨whenRefused, whenWaiting, whenRoom⟩ := offer_hello limitsMember .member s.profile.group (digestOf s.profile)
    have finish (q : TransmitQueue) (b : BusInterface) (m : Monitor)
        (greets : offer hello (newMember kept) = { newMember kept with queue := q, bus := b, monitor := m }) :
        ∃ t, exec (.vetoSample .high) s = .next t ∧ t.membership = { s.membership with
          state := .member, memberMarks := 0, quiet := 0 } ∧
        t.timer.lastReading = some ⟨g.counter, lead, lag⟩ ∧ t.timer.provisional = none ∧ t.queue.entries = q.entries ∧
        t.carrier = s.carrier ∧ t.orders = { s.orders with schedule := t.orders.schedule } ∧
        liveOrders t = (liveOrders s).map (fun o => if o.target = g.counter + 1 then { o with armed := true } else o) ∧
        ((∀ o ∈ liveOrders s, o.target ≠ g.counter + 1) → t.orders = s.orders) ∧
        outputState t = (if s.carrier.synced then .live else .quiet) ∧
        t.monitor = if s.carrier.synced then
            postNotice s.profile.noticeMask ⟨.live s.carrier.current, some g.counter⟩
              (postNotice s.profile.noticeMask ⟨.joined lead, some g.counter⟩ m)
          else postNotice s.profile.noticeMask ⟨.joined lead, some g.counter⟩ m := by
      have joins : becomeMember lead kept = joined lead { newMember kept with queue := q, bus := b, monitor := m } :=
        (becomeMember_within (s := kept) within).trans (congrArg (joined lead) greets)
      refine ⟨_, (calm quiet).trans (congrArg _ (joins.trans (joined_eq ..))), rfl, rfl, rfl, rfl, rfl, rfl, orders, fun clear => ?_, ?_,
        joined_monitor rfl (some g.counter) rfl⟩
      · show ({ s.orders with schedule := schedule } : OrderEngine) = s.orders
        rw [untouched clear]
      · show outputOf .member s.carrier.synced = _
        cases s.carrier.synced <;> rfl
    by_cases isRefused : refused
    · have after := finish _ _ _ (whenRefused isRefused)
      rw [if_pos isRefused, if_pos isRefused]
      exact after
    · rw [if_neg isRefused, if_neg isRefused]
      rcases cases.resolve_left isRefused with ⟨room, fresh⟩ | ⟨e, he, kind, waiting⟩
      · rw [if_neg (fun ⟨e, he, kind⟩ => fresh e he kind)]
        exact finish _ _ _ (whenRoom room fresh)
      · rw [if_pos ⟨e, he, kind⟩]
        obtain ⟨t, ran, membership, last, none, queue, rest⟩ := finish _ _ _ (whenWaiting e he kind waiting)
        refine ⟨t, ran, membership, last, none, queue.trans (List.map_congr_left fun x hx => ?_), rest⟩
        simp only [beq_iff_eq, hello_unique limits he hx kind]
        rfl
  · have left : (withdraw .tally kept).membership.state = .leaving ∧
        (withdraw .tally kept).timer.lastReading = some ⟨g.counter, lead, lag⟩ := by
      obtain ⟨q, b, m, shape⟩ := beforeLeave_eq .tally kept
      rw [withdraw_eq limitsKept (.inr (.inl arriving)), shape]
      exact ⟨rfl, rfl⟩
    have same : checked = skewMonitor lead lag s := if_pos isWide
    have inner : (if s.profile.skewWindow < lead + lag then withdrawIf (countTally .skew s).2
        { readingKept ⟨g.counter, lead, released, some lag⟩ (decidedState g schedule s) with monitor := skewMonitor lead lag s }
        else readingKept ⟨g.counter, lead, released, some lag⟩ (decidedState g schedule s)) = withdraw .tally kept := by
      rw [asked]
      exact (if_pos isWide).trans (congrArg (fun m => withdraw .tally ({ readingKept ⟨g.counter, lead, released, some lag⟩
          (decidedState g schedule s) with monitor := m } : State)) same.symm)
    rw [inner, if_neg (by rw [left.1]; decide)] at run
    exact ⟨_, run, left.1, left.2, withdraw_notices .tally kept⟩
  · have isWide : wide := lt_of_lt_of_le beyond (Nat.le_add_right ..)
    have unasked := countTally_notAsked below
    have returns : becomeMember lead kept = alignFailed (.lead lead) kept := if_neg (Nat.not_le.mpr beyond)
    obtain ⟨listen, -, -, -, -, withdrawals, -, grid, -, -, -, -, -, -, -, -, monitor, -⟩ :=
      alignFailedReturnsToListen (.lead lead) kept (.inr arriving)
    refine ⟨_, (calm fun h => by rw [unasked] at h; cases h.2).trans (congrArg _ returns), listen, grid, withdrawals, fun room mask => ?_⟩
    have same : checked = skewMonitor lead lag s := if_pos isWide
    have counted : (countTally .skew s).1.monitor.notices = s.monitor.notices ∧ (countTally .skew s).1.profile = s.profile ∧
        (countTally .skew s).1.timer = s.timer := by
      by_cases counts : Tallies.Counts .skew s
      · rw [countTally_below counts below]; exact ⟨rfl, rfl, rfl⟩
      · rw [countTally_stays counts]; exact ⟨rfl, rfl, rfl⟩
    obtain ⟨notices, profile, timer⟩ := counted
    have first : checked.notices = s.monitor.notices ++ [⟨.skewWide lead lag, some g.counter⟩] := by
      rw [same, skewMonitor, post_room (by rw [profile, mask]; exact enabled_all _) (by rw [notices]; omega)]
      rw [notices, timer, hg]; rfl
    rw [monitor, post_room (by show s.profile.noticeMask.getLsbD _ = true; rw [mask]; exact enabled_all _) (by
      show checked.notices.length < 16
      rw [first, List.length_append, List.length_singleton]; omega)]
    show checked.notices ++ _ = _
    rw [first, List.append_assoc]
    rfl
  · have due : orderWithTarget s (g.counter + 1) = some o := target ▸ orderWithTarget_eq distinct live
    have remaining := liveOrders_retireOrder o.id s
    have clear : orderWithTarget (vetoOrder o false s) (g.counter + 1) = none := by
      refine orderWithTarget_none.mpr fun x hx same => ?_
      have hx : x ∈ liveOrders (retireOrder o.id s) := hx
      rw [remaining, List.mem_filter] at hx
      have found := orderWithTarget_eq distinct hx.1
      rw [same, due] at found
      rw [Option.some.inj found] at hx
      simp at hx
    have timer : (vetoOrder o false s).timer = s.timer := retireOrder_timer ..
    have profile : (vetoOrder o false s).profile = s.profile := retireOrder_profile ..
    refine ⟨vetoOrder o false s, ?_, remaining, ?_, timer, retireOrder_membership .., retireOrder_carrier .., profile,
      queueInLimits_retireOrder o.id limits, ?_⟩
    · rw [exec_vetoSample_due hg reached due (.inl rfl), exec_vetoSample_clear (timer ▸ hg) (by rw [profile]; exact reached) clear
        (.inl ⟨rfl, by rw [timer]; exact claim⟩), sampled_vetoOrder hg]
      show Host.Outcome.next (settleReading false (vetoOrder o s.timer.claims.veto (sampled g s))) = _
      rw [claim]
    · show postNotice (retireOrder o.id s).profile.noticeMask ⟨_, (retireOrder o.id s).timer.grid.map (·.counter)⟩
        (retireOrder o.id s).monitor = _
      rw [retireOrder_profile, retireOrder_timer, retireOrder_monitor, hg]; rfl
    · show (liveOrders (retireOrder o.id s)).Pairwise _
      rw [remaining]
      exact distinct.filter _

end Sys2Proof.Machine
end
section
/-! A frame with the station's own number (R115, R119, R148). -/

namespace Sys2Proof.Machine

/-! ### What the delivery of such a frame leaves -/

/-- A MEMBER stays one, with the same count of withdrawals. -/
def MemberStays (w : Nat) (s : State) : Prop :=
  s.membership.state = .member ∧ s.membership.leaving = none ∧ s.membership.withdrawals = w

theorem memberStays_congr {w : Nat} {s t : State} (membership : t.membership = s.membership) (h : MemberStays w s) :
    MemberStays w t := by
  rw [MemberStays, membership]; exact h

theorem memberStays_keptByLosses (w : Nat) : KeptByLosses (MemberStays w) where
  post _ _ h := h
  append _ _ h := h
  replace _ _ _ h := h
  remove _ _ h := h
  displace _ _ h := h
  unsent _ _ h := h
  abandon _ _ _ h := h
  leave s h := by rw [endLeaving_none s h.2.1]; exact h

theorem memberStays_setRoster {w : Nat} (n : StationNo) (e : RosterEntry) {s : State} (h : MemberStays w s) :
    MemberStays w (setRoster n e s) := by
  unfold setRoster; split <;> exact h

theorem memberStays_raisePeer {w : Nat} (n : StationNo) (g : Option Group) {s : State} (h : MemberStays w s) :
    MemberStays w (raisePeer n g s) := by
  unfold raisePeer
  dsimp only
  split
  · exact memberStays_setRoster n _ h
  · exact memberStays_setRoster n _ h

theorem memberStays_heardFrom {w : Nat} (n : StationNo) {s : State} (h : MemberStays w s) : MemberStays w (heardFrom n s) :=
  memberStays_raisePeer n _ h

theorem memberStays_heardLeaving {w : Nat} (n : StationNo) {s : State} (h : MemberStays w s) : MemberStays w (heardLeaving n s) := by
  unfold heardLeaving
  dsimp only
  split
  · exact memberStays_setRoster n _ h
  · exact h

theorem memberStays_losePeer {w : Nat} (n : StationNo) (how : PeerLoss) {s : State} (h : MemberStays w s) :
    MemberStays w (losePeer n how s) := by
  have gone := memberStays_setRoster n RosterEntry.absent h
  unfold losePeer
  dsimp only
  refine loseElector_keeps (memberStays_keptByLosses w) (fun _ _ h => h) n _ ?_
  split <;> exact gone

theorem memberStays_offer {w : Nat} (p : Payload) {s : State} (h : MemberStays w s) : MemberStays w (offer p s) :=
  offer_keeps (memberStays_keptByLosses w) p s h

theorem memberStays_deliverPropose {w : Nat} (sender : StationNo) (seq : Seq) (target : Epoch) (mask : GroupMask) (tone : ToneIndex)
    (mode : PhaseMode) {s : State} (h : MemberStays w s) : MemberStays w (deliverPropose sender seq target mask tone mode s) := by
  have member := h.1
  unfold deliverPropose
  simp only [member]
  split
  · exact memberStays_offer _ (s := addOrder _ s) h
  · exact memberStays_offer _ h

theorem memberStays_deliverVote {w : Nat} (voter origin : StationNo) (seq : Seq) (verdict : Verdict) {s : State}
    (h : MemberStays w s) : MemberStays w (deliverVote voter origin seq verdict s) := by
  unfold deliverVote
  split
  · split
    · exact h
    · split
      · split
        · exact checkBallot_keeps (memberStays_keptByLosses w) (fun _ _ h => h) seq (updateBallot seq _ s) h
        · exact h
      · split
        · exact h
        · exact abortOwn_keeps (memberStays_keptByLosses w) _ _ _ _ h
  · exact h

theorem memberStays_deliverCommit {w : Nat} (sender : StationNo) (seq : Seq) (target : Epoch) {s : State}
    (h : MemberStays w s) : MemberStays w (deliverCommit sender seq target s) := by
  unfold deliverCommit
  split
  · split
    · split <;> exact h
    · exact h
  · exact h

theorem memberStays_deliverAbort {w : Nat} (sender : StationNo) (seq : Seq) (target : Epoch) (reason : AbortReason)
    (refuser : StationNo) {s : State} (h : MemberStays w s) : MemberStays w (deliverAbort sender seq target reason refuser s) := by
  unfold deliverAbort
  split
  · split <;> exact h
  · exact h

theorem memberStays_rosterHello {w : Nat} (sender : StationNo) (state : HelloState) (group : Group) {s : State}
    (h : MemberStays w s) : MemberStays w (rosterHello sender state group s) := by
  unfold rosterHello
  split
  · split
    · exact memberStays_losePeer _ _ h
    · exact h
  · refine memberStays_setRoster _ _ ?_
    split
    · exact memberStays_losePeer _ _ h
    · exact h
  · exact memberStays_raisePeer _ _ h

theorem memberStays_deliverHello {w : Nat} (sender : StationNo) (state : HelloState) (group : Group) (digest : Digest) {s : State}
    (h : MemberStays w s) : MemberStays w (deliverHello sender state group digest s) := by
  have recording : recordingState s.membership.state = true := by rw [h.1]; rfl
  rw [deliverHello_recording recording]
  split
  · unfold runningHello
    dsimp only
    split
    · exact memberStays_offer _ (memberStays_rosterHello _ _ _ h)
    · exact memberStays_rosterHello _ _ _ h
  · unfold noteRunningMismatch
    split <;> exact h

theorem memberStays_deliverLeave {w : Nat} (sender : StationNo) (reason : Cause) {s : State} (h : MemberStays w s) :
    MemberStays w (deliverLeave sender reason s) := by
  have member := h.1
  unfold deliverLeave
  simp only [member]
  split
  · exact memberStays_losePeer _ _ h
  · exact h

/-- No frame but an EPOCH takes a station out of MEMBER. -/
theorem memberStays_deliveryOf {w : Nat} {c : Instr} {n : StationNo} {p : Payload} (hc : c.acceptedFrame = some (n, p))
    (other : payloadKind p ≠ .epoch) (s : State) {t : State} (h : MemberStays w t) : MemberStays w (deliveryOf c s t) := by
  have roster (u : State) (hu : MemberStays w u) : MemberStays w (thenRoster (heardFrom n) u) :=
    thenRoster_keeps (update := heardFrom n) (fun _ _ ht => memberStays_heardFrom n ht) u hu
  cases c <;> cases hc
  case proposeAccepted => exact roster _ (memberStays_deliverPropose _ _ _ _ _ _ h)
  case voteAccepted => exact roster _ (memberStays_deliverVote _ _ _ _ h)
  case commitAccepted => exact roster _ (memberStays_deliverCommit _ _ _ h)
  case abortAccepted =>
    refine thenRoster_keeps (fun u _ hu => ?_) _ (memberStays_deliverAbort _ _ _ _ _ h)
    split
    · exact memberStays_heardLeaving _ hu
    · exact memberStays_heardFrom _ hu
  case epochAccepted => exact absurd rfl other
  case helloAccepted => exact memberStays_deliverHello _ _ _ _ h
  case leaveAccepted => exact memberStays_deliverLeave _ _ h

/-! ### The delivery in LISTEN -/

/-- At most one notice more, and the same count of withdrawals. -/
def ListenKeeps (s t : State) : Prop :=
  t.membership.withdrawals = s.membership.withdrawals ∧ t.monitor.notices.length ≤ s.monitor.notices.length + 1

theorem listenKeeps_refl (s : State) : ListenKeeps s s := ⟨rfl, Nat.le_succ _⟩

theorem listenKeeps_noteMismatch (n : StationNo) (d : Digest) (s : State) : ListenKeeps s (noteMismatch n d s) := by
  unfold noteMismatch
  split
  · exact listenKeeps_refl s
  · exact ⟨rfl, post_notices_length _ { s with membership := { s.membership with mismatch := addTo s.membership.mismatch n } }⟩

theorem offerQuietly_notices (p : Payload) (s : State) :
    (offerWith (fun _ u => u) p s).monitor.notices.length ≤ s.monitor.notices.length + 1 := by
  obtain ⟨-, -, -, orders, -⟩ := offerQuietly_keeps p s
  have demand := noticeDemand_offerWith (f := fun _ u => u) (fun _ _ => le_rfl) p s
  rw [noticeDemand, noticeDemand, openBallots_congr orders] at demand
  omega

theorem listenKeeps_enterForming (sender : Option (StationNo × Group)) (s : State) : ListenKeeps s (enterForming sender s) := by
  have offered (entered : State) (leaving : entered.membership.leaving = none)
      (withdrawals : entered.membership.withdrawals = s.membership.withdrawals) (monitor : entered.monitor = s.monitor) :
      ListenKeeps s (releaseIfComplete (offer (ownHello .forming s) entered)) := by
    have released : ∀ u : State, ListenKeeps s u → ListenKeeps s (releaseIfComplete u) := fun u hu => by
      unfold releaseIfComplete; split <;> exact hu
    have notices := offerQuietly_notices (ownHello .forming s) entered
    rw [← offer_quiet (kindCode_hello .forming s) leaving, monitor] at notices
    exact released _ ⟨(congrArg Membership.withdrawals (offer_station _ entered leaving).2).trans withdrawals, notices⟩
  exact offered _ rfl rfl rfl

theorem listenKeeps_deliveryOf (c : Instr) (s : State) {t : State} (listen : t.membership.state = .listen) :
    ListenKeeps t (deliveryOf c s t) := by
  unfold deliveryOf
  split
  case h_1 => rw [deliverPropose_listen _ _ _ _ _ _ listen, thenRoster_listen _ listen]; exact listenKeeps_refl t
  case h_2 => rw [deliverVote_listen _ _ _ _ listen, thenRoster_listen _ listen]; exact listenKeeps_refl t
  case h_3 => rw [deliverCommit_listen _ _ _ listen, thenRoster_listen _ listen]; exact listenKeeps_refl t
  case h_4 => rw [deliverAbort_listen _ _ _ _ _ listen, thenRoster_listen _ listen]; exact listenKeeps_refl t
  case h_5 sender mark horizon digest =>
    unfold deliverEpoch
    rw [listen]
    cases digestMatches t digest with
    | true =>
      show ListenKeeps t (setRoster _ _ _)
      unfold setRoster
      split <;> exact ⟨rfl, Nat.le_succ _⟩
    | false => exact listenKeeps_noteMismatch sender digest { t with membership := { t.membership with cohortSeen := true } }
  case h_6 sender state group digest =>
    rw [deliverHello_listen listen]
    split
    · split
      · exact listenKeeps_enterForming _ t
      · exact listenKeeps_noteMismatch _ _ t
    · exact listenKeeps_refl t
  case h_7 => rw [deliverLeave_listen _ _ listen]; exact listenKeeps_refl t
  case h_8 => exact listenKeeps_refl t

/-! ### The report -/

/-- On its way to IDLE: there already, or LEAVING for it. -/
def TowardsIdle (s : State) : Prop :=
  s.membership.state = .idle ∨
    (s.membership.state = .leaving ∧ ∀ l, s.membership.leaving = some l → l.destination = .idle)

/-- A withdrawal with cause DUPLICATE takes a station that holds no destination towards IDLE. -/
theorem withdraw_duplicate_towardsIdle {s : State} (limits : QueueInLimits s) (listen : s.membership.state ≠ .listen)
    (leaving : s.membership.state ≠ .leaving) : TowardsIdle (withdraw .duplicate s) := by
  have goes : withdrawDestination .duplicate s = .idle := withdrawDestination_eq ..
  have left (active : s.membership.state = .forming ∨ s.membership.state = .arriving ∨ s.membership.state = .member) :
      TowardsIdle (withdraw .duplicate s) := by
    obtain ⟨q, b, m, shape⟩ := beforeLeave_eq .duplicate s
    rw [withdraw_eq limits active, shape, goes]
    exact .inr ⟨rfl, fun l remembered => by obtain rfl := Option.some.inj remembered; rfl⟩
  cases state : s.membership.state with
  | idle => rw [show withdraw .duplicate s = s from if_neg (by rw [state]; decide)]; exact .inl state
  | listen => exact absurd state listen
  | forming => exact left (.inl state)
  | aligning =>
    obtain ⟨-, membership, -⟩ := abandonOrders_keeps (enterLeaving .duplicate .idle (withdrawNotice .duplicate s))
    have ends : withdraw .duplicate s =
        endLeaving (purgeForLeaving (abandonOrders (enterLeaving .duplicate .idle (withdrawNotice .duplicate s)))) := by
      unfold withdraw
      rw [if_pos (by rw [state]; rfl)]
      exact if_pos state
    have remembered : (purgeForLeaving (abandonOrders (enterLeaving .duplicate .idle
        (withdrawNotice .duplicate s)))).membership.leaving = some ⟨s.membership.state, .duplicate, .idle⟩ :=
      congrArg Membership.leaving membership
    rw [ends, endLeaving, remembered]
    exact .inl rfl
  | arriving => exact left (.inr (.inl state))
  | member => exact left (.inr (.inr state))
  | leaving => exact absurd state leaving

theorem duplicateNumber_listen {was : StationState} {s : State} (h : was = .listen ∨ s.membership.state = .listen) :
    duplicateNumber was s = post (.withdrawn .duplicate .idle false) (enterIdle s) := if_pos h

theorem duplicateNumber_leaving {was : StationState} {s : State} {l : Leaving} (h : ¬ (was = .listen ∨ s.membership.state = .listen))
    (remembered : s.membership.leaving = some l) : duplicateNumber was s = post (.withdrawn .duplicate .idle false)
      { s with membership := { s.membership with leaving := some { l with destination := .idle } } } := by
  rw [duplicateNumber, if_neg h, remembered]

theorem duplicateNumber_withdraws {was : StationState} {s : State} (h : ¬ (was = .listen ∨ s.membership.state = .listen))
    (remembered : s.membership.leaving = none) : duplicateNumber was s = withdraw .duplicate s := by
  rw [duplicateNumber, if_neg h, remembered]

/-- The report of a duplicate number takes the station towards IDLE. -/
theorem duplicateNumber_towardsIdle (was : StationState) {s : State} (tables : TablesFollowState s) (limits : QueueInLimits s) :
    TowardsIdle (duplicateNumber was s) := by
  by_cases listen : was = .listen ∨ s.membership.state = .listen
  · rw [duplicateNumber_listen listen]; exact .inl rfl
  · cases remembered : s.membership.leaving with
    | some l =>
      rw [duplicateNumber_leaving listen remembered]
      refine .inr ⟨tables.1.mp (by rw [remembered]; rfl), fun x same => ?_⟩
      obtain rfl := Option.some.inj same
      rfl
    | none =>
      rw [duplicateNumber_withdraws listen remembered]
      refine withdraw_duplicate_towardsIdle limits (fun h => listen (.inr h)) fun leaving => ?_
      have := tables.1.mpr leaving
      rw [remembered] at this; cases this

/-- Settles O55. -/
theorem duplicateNumberEndsInIdle : Obligations.DuplicateNumberEndsInIdle := by
  intro c p s hc can tables timer limits
  have run : exec c s = .next (duplicateNumber s.membership.state (deliveryOf c s (frameEnds s))) := by
    rw [exec_accepted hc]
    exact congrArg _ ((if_pos can).trans (if_pos rfl))
  have tablesKept := tablesFollowState_kept (dirty := True)
  have queueKept := queueInOrder_kept (dirty := True)
  obtain ⟨tables', limits'⟩ := queueKept.deliveryOf c s _ (.inl trivial) (queueKept.frameEnds s ⟨tables, limits⟩)
  have towards := duplicateNumber_towardsIdle s.membership.state tables' limits'
  have after {P : State → Prop} {lax : Prop} (k : Kept lax True P) (hs : P s) :
      P (duplicateNumber s.membership.state (deliveryOf c s (frameEnds s))) := by
    have kept := k.accepted (ownNumber s) p (deliveryOf c s) s (k.deliveryOf c s _ (.inl trivial) (k.frameEnds s hs))
      (fun h => deliveryOf_listen c s (by simpa using h)) hs
    rw [exec_accepted hc] at run
    rw [Host.Outcome.next.inj run] at kept
    exact kept
  obtain ⟨-, quiet, -, ballots⟩ := after tablesKept tables
  obtain ⟨present, formation, transient, -⟩ := after timerFollowsState_kept timer
  generalize ends : duplicateNumber s.membership.state (deliveryOf c s (frameEnds s)) = t at *
  have passive : recordingState t.membership.state = false ∧ t.membership.state ≠ .member ∧
      gridState t.membership.state = false ∧ t.membership.state ≠ .forming := by
    rcases towards with h | ⟨h, -⟩ <;> rw [h] <;> decide
  obtain ⟨passive, notMember, noGrid, notForming⟩ := passive
  obtain ⟨orders, roster⟩ := quiet passive
  refine ⟨t, run, towards, orders, ballots notMember, roster, ?_, ?_, fun listen => ?_, fun leaving => ?_, fun member other => ?_⟩
  · rw [noGrid] at present
    exact Option.isNone_iff_eq_none.mp (Option.isSome_eq_false_iff.mp present)
  · have unclaimed : ∀ claim : Bool, (claim = true → gridState t.membership.state = true) → claim = false := fun claim h => by
      rw [← Bool.not_eq_true]; exact fun stands => absurd (noGrid.symm.trans (h stands)) Bool.false_ne_true
    have formed : t.timer.claims.formation = false := by
      rw [← Bool.not_eq_true]; exact fun stands => notForming (formation stands)
    rw [pullsHold, formed, unclaimed _ fun h => transient (.inl h), unclaimed _ fun h => transient (.inr (.inl h))]
    rfl
  · obtain ⟨withdrawals, notices⟩ := listenKeeps_deliveryOf c s (t := frameEnds s) (by rw [frameEnds_membership]; exact listen)
    rw [frameEnds_membership] at withdrawals
    rw [frameEnds_monitor] at notices
    obtain ⟨u, ran, profile, -⟩ := exec_accepted_records hc s
    obtain rfl := Host.Outcome.next.inj (run.symm.trans ran)
    rw [duplicateNumber_listen (.inl listen)] at ends
    subst ends
    refine ⟨rfl, rfl, withdrawals, fun room enabled => ?_⟩
    have mask : (enterIdle (deliveryOf c s (frameEnds s))).profile = s.profile := profile
    rw [post_room (by rw [mask]; exact enabled) (by
      show (deliveryOf c s (frameEnds s)).monitor.notices.length < 16
      omega)]
    exact List.getLast?_concat ..
  · have discarded := deliveryOf_discarded hc s (t := frameEnds s) (.inl (by rw [frameEnds_membership]; exact leaving))
    obtain ⟨l, remembered⟩ := Option.isSome_iff_exists.mp (tables.1.mpr leaving)
    have report := duplicateNumber_leaving (was := s.membership.state) (s := frameEnds s) (l := l)
      (by rw [frameEnds_membership, leaving]; decide) (by rw [frameEnds_membership]; exact remembered)
    rw [← ends, discarded, report, frameEnds_membership, remembered]
    rfl
  · obtain ⟨stays, forgotten, withdrawals⟩ := memberStays_deliveryOf (w := s.membership.withdrawals) hc other s (t := frameEnds s)
      (by
        rw [MemberStays, frameEnds_membership]
        refine ⟨member, ?_, rfl⟩
        rw [← Option.not_isSome_iff_eq_none, tables.1, member]
        decide)
    have report := duplicateNumber_withdraws (was := s.membership.state) (s := deliveryOf c s (frameEnds s))
      (by rw [member, stays]; decide) forgotten
    have goes : withdrawDestination .duplicate (deliveryOf c s (frameEnds s)) = .idle := withdrawDestination_eq ..
    obtain ⟨q, b, m, shape⟩ := beforeLeave_eq .duplicate (deliveryOf c s (frameEnds s))
    have eq := ends.symm.trans (report.trans (withdraw_eq limits' (.inr (.inr stays))))
    refine ⟨?_, ?_, ?_, ?_⟩
    · rw [eq, shape]; rfl
    · rw [eq, shape, goes]
      exact congrArg (fun state => some (⟨state, .duplicate, .idle⟩ : Leaving)) stays
    · rw [eq, shape]; exact withdrawals
    · rw [eq]
      exact ⟨_, List.mem_append_right _ (List.mem_singleton.mpr rfl), rfl⟩

end Sys2Proof.Machine
end
section
/-! SUBMIT: the checks in the order of R6, and the order, the ballot and the PROPOSE of an accepted one. -/

namespace Sys2Proof.Machine

/-! ### The checks -/

theorem queueFull_iff (s : State) : queueFull s = true ↔ 8 ≤ s.queue.entries.length ∧
    ∀ e ∈ s.queue.entries, payloadKind e.payload ∉ [FrameKind.epoch, .hello, .leave] := by
  have code : ∀ kind : FrameKind, kindCode kind < kindCode .epoch ↔ kind ∉ [FrameKind.epoch, .hello, .leave] := by
    intro kind; cases kind <;> decide
  rw [queueFull, Bool.and_eq_true, decide_eq_true_iff, List.all_eq_true]
  simp only [decide_eq_true_eq, code]
  rfl

theorem below_some {bound n : Nat} (h : n < bound) : below bound n = some ⟨n, h⟩ := dif_pos h

theorem phaseModeOf_eq (mode : Byte) : phaseModeOf mode.toNat =
    if mode = 1 then some .restart else if mode = 2 then some .continued else none := by
  have one : mode = 1 ↔ mode.toNat = 1 := ⟨fun h => by rw [h]; rfl, fun h => BitVec.eq_of_toNat_eq h⟩
  have two : mode = 2 ↔ mode.toNat = 2 := ⟨fun h => by rw [h]; rfl, fun h => BitVec.eq_of_toNat_eq h⟩
  simp only [one, two]
  unfold phaseModeOf
  split <;> simp_all

/-- The operands of a SUBMIT that are outside the ranges of R6. -/
def BadOperands (tone mode : Byte) : Prop := 63 < tone.toNat ∨ (mode ≠ 1 ∧ mode ≠ 2)

theorem goodOperands {tone mode : Byte} (h : ¬ BadOperands tone mode) : ∃ (i : ToneIndex) (m : PhaseMode),
    below 64 tone.toNat = some i ∧ phaseModeOf mode.toNat = some m ∧ i.val = tone.toNat ∧ phaseModeCode m = mode.toNat := by
  have range : tone.toNat < 64 := by by_contra far; exact h (.inl (by omega))
  rw [phaseModeOf_eq]
  by_cases one : mode = 1
  · exact ⟨⟨tone.toNat, range⟩, .restart, below_some range, if_pos one, rfl, by rw [one]; rfl⟩
  · by_cases two : mode = 2
    · exact ⟨⟨tone.toNat, range⟩, .continued, below_some range, by rw [if_neg one, if_pos two], rfl, by rw [two]; rfl⟩
    · exact absurd (.inr ⟨one, two⟩) h

theorem submitRefusal_bad {tone mode : Byte} (h : BadOperands tone mode) (s : State) (target : Epoch) (mask : Byte) :
    submitRefusal s target mask (below 64 tone.toNat) (phaseModeOf mode.toNat) = some .badArgument := by
  have missing : below 64 tone.toNat = none ∨ phaseModeOf mode.toNat = none := by
    rcases h with far | ⟨one, two⟩
    · exact .inl (dif_neg (by omega))
    · exact .inr (by rw [phaseModeOf_eq, if_neg one, if_neg two])
  unfold submitRefusal
  split
  case h_1 tone mode => rcases missing with none | none <;> simp_all
  case h_2 => rfl

/-- The first check that fails, as R6 puts them. -/
theorem submitRefusal_eq {s : State} {g : Grid} (hg : s.timer.grid = some g) (target : Epoch) (mask tone mode : Byte) :
    submitRefusal s target mask (below 64 tone.toNat) (phaseModeOf mode.toNat) =
      if mask = 0 ∨ 63 < tone.toNat ∨ (mode ≠ 1 ∧ mode ≠ 2) then some .badArgument
      else if epochDistance g.counter target < s.profile.commitLead + 2 ∨ 32767 < epochDistance g.counter target then some .late
      else if 4 ≤ (openBallots s).length then some .ballotsFull
      else if 16 ≤ (liveOrders s).length then some .scheduleFull
      else if ∃ o ∈ liveOrders s, o.target = target then some .clash
      else if inMask mask s.profile.group = true ∧ ∃ i : ToneIndex, i.val = tone.toNat ∧ (toneAt s i).valid = false then
        some .noTone
      else if 8 ≤ s.queue.entries.length ∧
          ∀ e ∈ s.queue.entries, payloadKind e.payload ∉ [FrameKind.epoch, .hello, .leave] then some .queueFull
      else none := by
  by_cases bad : BadOperands tone mode
  · rw [submitRefusal_bad bad, if_pos (.inr bad)]
  · obtain ⟨i, m, isTone, isMode, value, -⟩ := goodOperands bad
    have lacks : lacksTone s mask i = true ↔
        inMask mask s.profile.group = true ∧ ∃ i : ToneIndex, i.val = tone.toNat ∧ (toneAt s i).valid = false := by
      rw [lacksTone_iff]
      refine and_congr_right fun _ => ⟨fun invalid => ⟨i, value, invalid⟩, fun ⟨x, same, invalid⟩ => ?_⟩
      rw [Fin.ext (value.trans same.symm)]; exact invalid
    have argument : (mask = 0 ∨ 63 < tone.toNat ∨ (mode ≠ 1 ∧ mode ≠ 2)) ↔ mask = 0 := or_iff_left bad
    rw [isTone, isMode]
    simp only [submitRefusal, orderWithTarget_isSome, leadRefused_iff hg, lacks, queueFull_iff, argument]

/-! ### The sequence value (R5) -/

/-- The sequence value taken is the first candidate that no live own order uses. -/
theorem nextSequence_first (s : State) : ∃ k, k < 17 ∧ nextSequence s = s.orders.sequence + BitVec.ofNat 8 (k + 1) ∧
    ∀ j, j < k → ∃ o ∈ liveOrders s, o.id = ownId s (s.orders.sequence + BitVec.ofNat 8 (j + 1)) := by
  obtain ⟨q, hq, free⟩ := exists_freeSequence s
  have found : ((sequenceCandidates s).find? fun q => !(liveOrders s).any fun o => o.id == ownId s q).isSome = true :=
    List.find?_isSome.mpr ⟨q, hq, by simp [free]⟩
  obtain ⟨x, hx⟩ := Option.isSome_iff_exists.mp found
  have isNext : nextSequence s = x := by
    show (((sequenceCandidates s).find? _).getD _) = x
    rw [hx]; rfl
  obtain ⟨-, k, bound, isIt, used⟩ := List.find?_eq_some_iff_getElem.mp hx
  have length : (sequenceCandidates s).length = 17 := by simp [sequenceCandidates]
  have candidate : ∀ (j : Nat) (h : j < (sequenceCandidates s).length),
      (sequenceCandidates s)[j] = s.orders.sequence + BitVec.ofNat 8 (j + 1) := fun j h => by simp [sequenceCandidates]
  refine ⟨k, length ▸ bound, isNext.trans (isIt.symm.trans (candidate k bound)), fun j less => ?_⟩
  have taken := used j less
  rw [candidate] at taken
  simpa using taken

/-! ### The PROPOSE -/

/-- A PROPOSE offered to a queue that is not full for it is taken, and what gives way has no consequence. -/
theorem offer_propose {seq : Seq} {target : Epoch} {mask : GroupMask} {tone : ToneIndex} {mode : PhaseMode} {s : State}
    (leaving : s.membership.leaving = none) (free : queueFull s = false) :
    ∃ q b m, offer (.propose seq target mask tone mode) s = { s with queue := q, bus := b, monitor := m } ∧
      ∃ e ∈ q.entries, e.payload = .propose seq target mask tone mode := by
  have fresh : ∀ e ∈ s.queue.entries, sameLimit (.propose seq target mask tone mode) e.payload = false := fun _ _ => rfl
  rcases Nat.lt_or_ge s.queue.entries.length 8 with room | full
  · rw [offer_room _ _ fresh room]
    exact ⟨_, _, _, rfl, _, List.mem_append_right _ (List.mem_singleton.mpr rfl), rfl⟩
  · obtain ⟨e, he, code⟩ : ∃ e ∈ s.queue.entries, 5 ≤ kindCode (payloadKind e.payload) := by
      simp only [queueFull, Config.queuePlaces, full, decide_true, Bool.true_and, List.all_eq_false, decide_eq_true_eq, not_lt] at free
      exact free
    have high : 5 ≤ highestCode s := code.trans (le_highestCode he)
    rcases offerWith_full loseFrame fresh full (lt_of_lt_of_le (Nat.lt_succ_self 4) high) with
      ⟨victim, -, -, top, -, taken⟩ | ⟨a, -, -, -, -, -, -, taken⟩
    · have quiet := lose_quiet Config.lossDepth (p := victim.payload) (top ▸ high) (s := postDropped .displaced victim.payload
        (appendFrame (.propose seq target mask tone mode) (removeFrame victim.ident s))) leaving
      exact ⟨_, _, _, taken.trans quiet, _, List.mem_append_right _ (List.mem_singleton.mpr rfl), rfl⟩
    · exact ⟨_, _, _, taken, _, List.mem_append_right _ (List.mem_singleton.mpr rfl), rfl⟩

/-- Settles O19. -/
theorem submitChecksThenProposes : Obligations.SubmitChecksThenProposes := by
  intro target mask tone mode s taken
  have run : exec (.submit target mask tone mode) s = .next (taking (.submit target mask tone mode) s _) := rfl
  rw [taking_of _ taken] at run
  refine ⟨fun outside => run.trans (congrArg _ (if_pos outside)), fun member leaving g hg => ?_⟩
  have inside := run.trans (congrArg _ (if_neg (not_not.mpr member)))
  intro lead failed
  have refusal : submitRefusal s target mask (below 64 tone.toNat) (phaseModeOf mode.toNat) = failed :=
    submitRefusal_eq hg target mask tone mode
  rw [refusal] at inside
  refine ⟨fun reason isReason => ?_, fun passes => ?_⟩
  · rw [isReason] at inside; exact inside
  · rw [passes] at inside refusal
    obtain ⟨i, m, isTone, isMode, value, code⟩ := goodOperands (tone := tone) (mode := mode) fun bad => by
      rw [submitRefusal_bad bad] at refusal; cases refusal
    rw [isTone, isMode] at inside refusal
    have free : queueFull s = false := by
      simp only [submitRefusal] at refusal
      split_ifs at refusal with _ _ _ _ _ _ full
      simpa using full
    obtain ⟨queue, bus, monitor, offered, held⟩ := offer_propose (seq := nextSequence s) (target := target) (mask := mask)
      (tone := i) (mode := m) (s := submitted target mask i m s) leaving free
    obtain ⟨k, bound, next, used⟩ := nextSequence_first s
    have answer : exec (.submit target mask tone mode) s = .next (respond 0x07 .ok [nextSequence s]
        { submitted target mask i m s with queue := queue, bus := bus, monitor := monitor }) :=
      inside.trans (congrArg (fun u => Host.Outcome.next (respond 0x07 .ok [nextSequence s] u)) offered)
    exact ⟨_, nextSequence s, k, i, m, answer, rfl, bound, next, nextSequence_fresh s, used, value, code, rfl, rfl, rfl, held, rfl, rfl,
      rfl, rfl, rfl, rfl⟩

end Sys2Proof.Machine
end
section
/-! The epoch boundary: the equations of its actions, what they keep, and the advance of the counter. -/

namespace Sys2Proof.Machine

/-! ### The actions of a boundary -/

/-- The state after the vote close, the fired order and the blind horizon of a boundary. -/
def boundaryActed (g : Grid) (ch : Level) (s : State) : State :=
  clearBlindHorizon (fireDue (voteClose (advanceEpoch g ch s)))

/-- The state after a boundary that is due. -/
def afterBoundary (g : Grid) (ch : Level) (s : State) : State :=
  if isMarkEpoch s.profile (g.counter + 1) = true then markBoundary (boundaryActed g ch s) else boundaryActed g ch s

theorem exec_epochBoundary_absent {s : State} (h : s.timer.grid = none) (ch : Level) : exec (.epochBoundary ch) s = .next s := by
  show execEpochBoundary ch s = _
  unfold execEpochBoundary
  rw [h]

theorem exec_epochBoundary_early {s : State} {g : Grid} (hg : s.timer.grid = some g) (early : g.due = false) (ch : Level) :
    exec (.epochBoundary ch) s = .next s := by
  show execEpochBoundary ch s = _
  unfold execEpochBoundary
  simp [hg, early]

theorem exec_epochBoundary_due {s : State} {g : Grid} (hg : s.timer.grid = some g) (due : g.due = true) (ch : Level) :
    exec (.epochBoundary ch) s = .next (afterBoundary g ch s) := by
  show execEpochBoundary ch s = _
  unfold execEpochBoundary
  simp only [hg, due, Bool.not_true, Bool.false_eq_true, if_false]
  rfl

theorem advanceEpoch_timer (g : Grid) (ch : Level) (s : State) : (advanceEpoch g ch s).timer =
    if isMarkEpoch s.profile (g.counter + 1) = true then
      { s.timer with
        grid := some ⟨g.counter + 1, 0, 0, false⟩
        claims := { s.timer.claims with mark := true }
        provisional := some ⟨g.counter + 1, measuredLead ch s, none, none⟩ }
    else { s.timer with grid := some ⟨g.counter + 1, 0, 0, false⟩ } := by
  unfold advanceEpoch
  dsimp only
  split <;> rfl

theorem advanceEpoch_now (g : Grid) (ch : Level) (s : State) : nowEpoch (advanceEpoch g ch s) = g.counter + 1 :=
  nowEpoch_of_grid (advanceEpoch_grid g ch s)

/-- The ballot whose vote closes at the present epoch. -/
def closingBallot (s : State) : Option Ballot :=
  (openBallots s).find? fun b => b.target - BitVec.ofNat 16 s.profile.commitLead == nowEpoch s

theorem closingBallot_none {s : State} : closingBallot s = none ↔
    ∀ b ∈ openBallots s, b.target - BitVec.ofNat 16 s.profile.commitLead ≠ nowEpoch s := by
  simp [closingBallot]

theorem closingBallot_advance (g : Grid) (ch : Level) (s : State) : closingBallot (advanceEpoch g ch s) = none ↔
    ∀ b ∈ openBallots s, b.target - BitVec.ofNat 16 s.profile.commitLead ≠ g.counter + 1 := by
  rw [closingBallot_none, advanceEpoch_now, advanceEpoch_eq]
  rfl

theorem voteClose_none {s : State} (h : closingBallot s = none) : voteClose s = s := by
  unfold voteClose
  rw [show List.find? _ _ = none from h]

/-- Whether a frame on the bus settles a ballot at its vote close. -/
def settlesOnBus (s : State) (b : Ballot) : Bool :=
  (b.state == .awaitingSend && proposeOnBus s b.seq b.target) || (b.state == .committing && commitOnBus s b.seq b.target)

/-- The reason for the abort of a ballot at its vote close. -/
def closeReason (b : Ballot) : AbortReason := if b.state = .awaitingSend then .unsent else .timeout

/-- Whether a frame is the one on which a ballot of the station `own` waits. -/
def ballotFrame (own : StationNo) (b : Ballot) (p : Payload) : Bool :=
  carriesBallot b p && frameOrderId own p == some ⟨own, b.seq⟩

theorem voteClose_open {s : State} {b : Ballot} (h : closingBallot s = some b) (unsettled : settlesOnBus s b = false) :
    voteClose s = abortOwn b (closeReason b) (ownNumber s) s := by
  unfold voteClose
  rw [show List.find? _ _ = some b from h]
  cases state : b.state <;> simp_all [settlesOnBus, closeReason]

theorem voteClose_settled {s : State} {b : Ballot} (h : closingBallot s = some b) (settled : settlesOnBus s b = true) :
    voteClose s = purgeWhere (fun e => ballotFrame (ownNumber s) b e.payload) s := by
  have picked : ∀ p q : QueueEntry → Bool, (∀ e, p e = q e) → purgeWhere p s = purgeWhere q s := fun p q same => by
    rw [funext same]
  unfold voteClose
  rw [show List.find? _ _ = some b from h]
  cases state : b.state
  case awaitingSend =>
    have sent : proposeOnBus s b.seq b.target = true := by simpa [settlesOnBus, state] using settled
    simp only [state, sent, if_true]
    refine picked _ _ fun e => ?_
    cases e.payload <;> simp [ballotFrame, carriesBallot, state, payloadKind, frameOrderId]
  case collecting => simp [settlesOnBus, state] at settled
  case committing =>
    have sent : commitOnBus s b.seq b.target = true := by simpa [settlesOnBus, state] using settled
    simp only [state, sent, if_true]
    refine picked _ _ fun e => ?_
    cases e.payload <;> simp [ballotFrame, carriesBallot, state, payloadKind, frameOrderId]

theorem fireDue_none {s : State} (h : orderWithTarget s (nowEpoch s) = none) : fireDue s = s := by
  unfold fireDue
  rw [h]

/-- Whether a fired order is applied. -/
def appliedAt (s : State) (o : Order) : Bool := o.armed && appliesHere s o

/-- The carrier after an order has fired (R75 to R77). -/
def firedCarrier (o : Order) (s : State) : Carrier :=
  if appliedAt s o = true then
    if (toneAt s o.tone).valid = true then takeTone o.tone o.mode (setsSynced s o) s.carrier else silenceCarrier s.carrier
  else s.carrier

theorem applyTone_eq (i : ToneIndex) (mode : PhaseMode) (sets : Bool) (s : State) : applyTone i mode sets s =
    if (toneAt s i).valid = true then
      { s with
        carrier := takeTone i mode sets s.carrier
        monitor :=
          if outputState s ≠ .live ∧ outputOf s.membership.state (takeTone i mode sets s.carrier).synced = .live then
            (post (.live (some i)) s).monitor
          else s.monitor }
    else { s with carrier := silenceCarrier s.carrier } := by
  unfold applyTone
  rw [postIfLive_eq]
  rfl

/-- Whether the fired order makes the output LIVE (R80). -/
def firedLive (o : Order) (s : State) : Bool :=
  appliedAt s o && (toneAt s o.tone).valid && outputState s != .live &&
    outputOf s.membership.state (takeTone o.tone o.mode (setsSynced s o) s.carrier).synced == .live

/-- The Monitor after an order has fired: ORDER_FIRED, and LIVE after it. -/
def firedMonitor (o : Order) (s : State) : Monitor :=
  let fired := post (.orderFired o.id (appliedAt s o)) s
  if firedLive o s = true then (post (.live (some o.tone)) fired).monitor else fired.monitor

theorem retireOrder_eq (id : OrderId) (s : State) : ∃ (r : OrderEngine) (q : TransmitQueue) (b : BusInterface),
    retireOrder id s = { s with orders := r, queue := q, bus := b } := by
  unfold retireOrder
  dsimp only
  split <;> exact ⟨_, _, _, rfl⟩

theorem fireDue_some {s : State} {o : Order} (h : orderWithTarget s (nowEpoch s) = some o) :
    fireDue s = { retireOrder o.id s with carrier := firedCarrier o s, monitor := firedMonitor o s } := by
  have step : fireDue s =
      if appliedAt s o = true then
        applyTone o.tone o.mode (setsSynced s o) (post (.orderFired o.id (appliedAt s o)) (retireOrder o.id s))
      else post (.orderFired o.id (appliedAt s o)) (retireOrder o.id s) := by
    unfold fireDue
    rw [h]
    rfl
  obtain ⟨r, q, b, retired⟩ := retireOrder_eq o.id s
  rw [step, applyTone_eq, retired, firedMonitor, firedCarrier, firedLive]
  cases appliedAt s o
  · rfl
  · show (if (toneAt s o.tone).valid = true then _ else _) = _
    cases (toneAt s o.tone).valid
    · rfl
    · refine congrArg (fun m => ({ s with orders := r, queue := q, bus := b, monitor := m, carrier := _ } : State)) ?_
      refine if_congr ?_ rfl rfl
      show outputState s ≠ .live ∧ _ ↔ _
      simp

theorem firedMonitor_notices (o : Order) (s : State) : s.monitor.notices <+: (firedMonitor o s).notices := by
  have fired := post_notices_isPrefix (.orderFired o.id (appliedAt s o)) s
  unfold firedMonitor
  split
  · exact fired.trans (post_notices_isPrefix _ _)
  · exact fired

/-! ### What the actions of a boundary keep -/

/-- A property that the vote close keeps, by the consequences of an abort and by a purge. -/
theorem voteClose_keeps {P : State → Prop} (h : KeptByLosses P) (purge : ∀ p s, P s → P (purgeWhere p s)) (s : State)
    (hs : P s) : P (voteClose s) := by
  cases closing : closingBallot s with
  | none => rw [voteClose_none closing]; exact hs
  | some b =>
    cases settled : settlesOnBus s b with
    | false => rw [voteClose_open closing settled]; exact abortOwn_keeps h _ _ _ _ hs
    | true => rw [voteClose_settled closing settled]; exact purge _ _ hs

/-- A property that a fired order keeps. -/
theorem fireDue_keeps {P : State → Prop} (s : State) (hs : P s)
    (fires : ∀ o, orderWithTarget s (nowEpoch s) = some o →
      P { retireOrder o.id s with carrier := firedCarrier o s, monitor := firedMonitor o s }) : P (fireDue s) := by
  cases due : orderWithTarget s (nowEpoch s) with
  | none => rw [fireDue_none due]; exact hs
  | some o => rw [fireDue_some due]; exact fires o due

/-- A property that the actions of a mark boundary keep. -/
structure KeptAtMarks (P : State → Prop) : Prop where
  post : ∀ r s, P s → P (Machine.post r s)
  electorOut : ∀ n s, P s → P (Machine.electorOut n s)
  checkBallot : ∀ seq s, P s → P (Machine.checkBallot seq s)
  hello : ∀ group digest s, P s → P (offer (.hello .member group digest) s)
  purgeEpochs : ∀ p s, (∀ e, p e = true → payloadKind e.payload = .epoch) → P s → P (purgeWhere p s)
  membership : ∀ (s : State) (m : Membership), m.state = s.membership.state → m.leaving = s.membership.leaving →
    m.blindHorizon = s.membership.blindHorizon → P s → P { s with membership := m }

section
variable {P : State → Prop} (h : KeptAtMarks P)
include h

theorem KeptAtMarks.loseElector (n : StationNo) (s : State) (hs : P s) : P (Machine.loseElector n s) := by
  rw [loseElector_eq]
  have checked : ∀ (l : List Ballot) (t : State), P t → P (l.foldl (fun t b => Machine.checkBallot b.seq t) t) := by
    intro l
    induction l with
    | nil => exact fun t ht => ht
    | cons b l ih => exact fun t ht => ih _ (h.checkBallot b.seq t ht)
  exact checked _ _ (h.electorOut n s hs)

theorem KeptAtMarks.losePeer (n : StationNo) (how : PeerLoss) (s : State) (hs : P s) : P (Machine.losePeer n how s) := by
  have absent : P (Machine.setRoster n RosterEntry.absent s) := by
    unfold Machine.setRoster
    split
    · exact hs
    · exact h.membership s _ rfl rfl rfl hs
  rw [losePeer_eq]
  refine h.loseElector n _ ?_
  unfold peerGone
  split
  · exact h.post _ _ absent
  · exact absent

theorem KeptAtMarks.countSilence (s : State) (hs : P s) : P (Machine.countSilence s) := by
  have lost : ∀ (l : List StationNo) (t : State), P t → P (l.foldl (fun t n => Machine.losePeer n .silent t) t) := by
    intro l
    induction l with
    | nil => exact fun t ht => ht
    | cons n l ih => exact fun t ht => ih _ (h.losePeer n _ t ht)
  exact lost _ _ (h.membership s _ rfl rfl rfl hs)

theorem KeptAtMarks.countQuiet (s : State) (hs : P s) : P (Machine.countQuiet s) := by
  have counted : P { s with membership := { s.membership with quiet := min (s.membership.quiet + 1) s.profile.silenceLimit } } :=
    h.membership s _ rfl rfl rfl hs
  unfold Machine.countQuiet
  dsimp only
  split
  · split
    · exact h.hello _ _ _ counted
    · exact counted
  · exact hs

theorem KeptAtMarks.countMemberMark (s : State) (hs : P s) : P (Machine.countMemberMark s) := by
  unfold Machine.countMemberMark
  split
  · exact h.membership s _ rfl rfl rfl hs
  · exact hs

theorem KeptAtMarks.markBoundary (s : State) (hs : P s) : P (Machine.markBoundary s) := by
  have stale : ∀ e : QueueEntry, isStaleEpoch (nowEpoch s) e.payload = true → payloadKind e.payload = .epoch := by
    intro e picked
    cases payload : e.payload <;> rw [payload] at picked <;> first | rfl | cases picked
  exact h.countMemberMark _ (h.countQuiet _ (h.countSilence _ (h.purgeEpochs _ _ stale
    (h.membership s { s.membership with runningMismatch := 0 } rfl rfl rfl hs))))

/-- The rest of a boundary after the vote close and the fired order. -/
theorem KeptAtMarks.afterBoundary {g : Grid} {ch : Level} {s : State} (hs : P (boundaryActed g ch s)) :
    P (Machine.afterBoundary g ch s) := by
  unfold Machine.afterBoundary
  split
  · exact h.markBoundary _ hs
  · exact hs

end

/-- What every loss keeps, with the updates of a mark boundary that cause none. -/
theorem KeptByLosses.keptAtMarks {P : State → Prop} (h : KeptByLosses P)
    (committing : ∀ seq s, P s → P (updateBallot seq (fun x => { x with state := .committing }) s))
    (electors : ∀ n s, P s → P (electorOut n s)) (purge : ∀ p s, P s → P (purgeWhere p s))
    (membership : ∀ (s : State) (m : Membership), m.state = s.membership.state → m.leaving = s.membership.leaving →
      m.blindHorizon = s.membership.blindHorizon → P s → P { s with membership := m }) : KeptAtMarks P where
  post := h.post
  electorOut := electors
  checkBallot := checkBallot_keeps h committing
  hello _ _ s hs := offer_keeps h _ s hs
  purgeEpochs p s _ hs := purge p s hs
  membership := membership

/-- What every offer keeps, with the updates of a mark boundary that offer nothing. -/
theorem KeptByOffers.keptAtMarks {A L : Payload → Prop} {P : State → Prop} (h : KeptByOffers A L P)
    (hello : ∀ group digest, A (.hello .member group digest))
    (commit : ∀ b s, ballotWithSeq s b.seq = some b → b.state = .collecting → P s → A (.commit b.seq b.target) ∧
      P (updateBallot b.seq (fun x => { x with state := .committing }) s))
    (electors : ∀ n s, P s → P (electorOut n s))
    (purge : ∀ p s, (∀ e, p e = true → payloadKind e.payload = .epoch) → P s → P (purgeWhere p s))
    (membership : ∀ (s : State) (m : Membership), m.state = s.membership.state → m.leaving = s.membership.leaving →
      m.blindHorizon = s.membership.blindHorizon → P s → P { s with membership := m }) : KeptAtMarks P where
  post := h.post
  electorOut := electors
  checkBallot seq s hs := by
    unfold checkBallot
    split
    case h_1 b found =>
      split
      case isTrue complete =>
        obtain ⟨-, rfl⟩ := ballotWithSeq_some found
        obtain ⟨offered, committing⟩ := commit b s found complete.1 hs
        exact h.offerWith (fun p s hp hs => h.lose _ hp s hs) offered _ committing
      case isFalse => exact hs
    case h_2 => exact hs
  hello group digest s hs := h.offerWith (fun p s hp hs => h.lose _ hp s hs) (hello group digest) s hs
  purgeEpochs := purge
  membership := membership

/-! ### The counter and the blind horizon -/

theorem clearBlindHorizon_eq {s : State} {counter : Epoch} (now : nowEpoch s = counter + 1) : clearBlindHorizon s =
    { s with membership :=
      { s.membership with
        blindHorizon := if s.membership.blindHorizon = some counter then none else s.membership.blindHorizon } } := by
  have filtered : s.membership.blindHorizon.filter (fun h => !(h + 1 == nowEpoch s)) =
      if s.membership.blindHorizon = some counter then none else s.membership.blindHorizon := by
    rw [now]
    cases s.membership.blindHorizon with
    | none => rfl
    | some x => by_cases same : x = counter <;> simp [same]
  rw [clearBlindHorizon, filtered]

/-- The counter of a boundary and the blind horizon beside it, unless the station has left its cohort. -/
def CounterSet (counter : Epoch) (horizon : Option Epoch) (s : State) : Prop :=
  s.timer.grid = none ∨ (s.timer.grid = some ⟨counter, 0, 0, false⟩ ∧ s.membership.blindHorizon = horizon)

theorem counterSet_keptByLosses (counter : Epoch) (horizon : Option Epoch) : KeptByLosses (CounterSet counter horizon) where
  post _ _ h := h
  append _ _ h := h
  replace _ _ _ h := h
  remove _ _ h := h
  displace _ _ h := h
  unsent _ _ h := h
  abandon _ _ _ h := h
  leave s h := by
    unfold endLeaving
    split
    · exact h
    · split <;> exact .inl rfl

theorem counterSet_keptAtMarks (counter : Epoch) (horizon : Option Epoch) : KeptAtMarks (CounterSet counter horizon) :=
  (counterSet_keptByLosses counter horizon).keptAtMarks (fun _ _ h => h) (fun _ _ h => h) (fun _ _ h => h)
    fun _ _ _ _ same h => h.imp_right fun ⟨grid, blind⟩ => ⟨grid, same.trans blind⟩

theorem counterSet_clearBlindHorizon {counter : Epoch} {horizon : Option Epoch} {s : State} (h : CounterSet (counter + 1) horizon s) :
    CounterSet (counter + 1) (if horizon = some counter then none else horizon) (clearBlindHorizon s) := by
  rcases h with gone | ⟨grid, blind⟩
  · exact .inl gone
  · refine .inr ⟨grid, ?_⟩
    rw [clearBlindHorizon_eq (nowEpoch_of_grid grid), blind]

/-- Settles O35. -/
theorem boundaryAdvancesTheCounter : Obligations.BoundaryAdvancesTheCounter := by
  intro ch s
  refine ⟨fun absent => exec_epochBoundary_absent absent ch, fun g hg => ⟨fun early => exec_epochBoundary_early hg early ch,
    fun due => ⟨fun t h run grid => ?_, fun plain votes targets => ?_⟩⟩⟩
  · rw [exec_epochBoundary_due hg due] at run
    cases Host.Outcome.next.inj run
    have advanced : CounterSet (g.counter + 1) s.membership.blindHorizon (advanceEpoch g ch s) :=
      .inr ⟨advanceEpoch_grid g ch s, by rw [advanceEpoch_eq]⟩
    have closed := voteClose_keeps (counterSet_keptByLosses _ _) (fun _ _ h => h) _ advanced
    have fired := fireDue_keeps _ closed fun o _ => by
      obtain ⟨r, q, b, retired⟩ := retireOrder_eq o.id (voteClose (advanceEpoch g ch s))
      rw [retired]
      exact closed
    rcases (counterSet_keptAtMarks _ _).afterBoundary (counterSet_clearBlindHorizon fired) with gone | ⟨now, blind⟩
    · rw [gone] at grid; cases grid
    · rw [now] at grid
      cases Option.some.inj grid
      exact ⟨rfl, rfl, rfl, blind⟩
  · have orders : (advanceEpoch g ch s).orders = s.orders := by rw [advanceEpoch_eq]
    have noTarget : orderWithTarget (advanceEpoch g ch s) (nowEpoch (advanceEpoch g ch s)) = none := by
      rw [advanceEpoch_now, orderWithTarget_none, liveOrders_congr orders]
      exact targets
    have advanced : advanceEpoch g ch s = { s with timer := { s.timer with grid := some ⟨g.counter + 1, 0, 0, false⟩ } } := by
      rw [advanceEpoch_eq, advanceEpoch_timer, if_neg (by rw [plain]; exact Bool.false_ne_true)]
    rw [exec_epochBoundary_due hg due, afterBoundary, if_neg (by rw [plain]; exact Bool.false_ne_true), boundaryActed,
      voteClose_none ((closingBallot_advance g ch s).mpr votes), fireDue_none noTarget, clearBlindHorizon_eq (advanceEpoch_now g ch s), advanced]

end Sys2Proof.Machine
end
section
/-! The order that fires at a boundary. -/

namespace Sys2Proof.Machine

/-! ### What a boundary leaves as it is -/

/-- A boundary outside LEAVING keeps the Epoch Timer, the carrier, the profile and the station state. -/
def StandsAs (s t : State) : Prop :=
  t.timer = s.timer ∧ t.carrier = s.carrier ∧ t.profile = s.profile ∧ t.membership.state = s.membership.state ∧
    t.membership.leaving = none

theorem standsAs_keptByLosses (s : State) : KeptByLosses (StandsAs s) := by
  constructor
  case leave =>
    rintro t ⟨timer, carrier, profile, state, leaving⟩
    rw [endLeaving_none t leaving]
    exact ⟨timer, carrier, profile, state, leaving⟩
  all_goals intros; assumption

theorem standsAs_keptAtMarks (s : State) : KeptAtMarks (StandsAs s) :=
  (standsAs_keptByLosses s).keptAtMarks (fun _ _ h => h) (fun _ _ h => h) (fun _ _ h => h)
    fun _ _ state leaving _ ⟨timer, carrier, profile, same, before⟩ =>
      ⟨timer, carrier, profile, state.trans same, leaving.trans before⟩

theorem orderGone_keptAtMarks (id : OrderId) : KeptAtMarks fun s => ∀ o ∈ liveOrders s, o.id ≠ id :=
  (orderGone_keptByLosses id).keptAtMarks (fun _ _ h => h) (fun _ _ h => h) (fun _ _ h => h) fun _ _ _ _ _ h => h

theorem noticesFrom_keptAtMarks (l : List Notice) : KeptAtMarks fun s => l <+: s.monitor.notices :=
  (noticesFrom_keptByLosses l).keptAtMarks (fun _ _ h => h) (fun _ _ h => h) (fun _ _ h => h) fun _ _ _ _ _ h => h

/-- Outside LEAVING a vote close touches the orders, the queue, the Bus Interface and the Monitor alone. -/
theorem voteClose_eq {s : State} (leaving : s.membership.leaving = none) :
    ∃ (r : OrderEngine) (q : TransmitQueue) (b : BusInterface) (m : Monitor),
      voteClose s = { s with orders := r, queue := q, bus := b, monitor := m } := by
  have base := voteClose_keeps (SameBase.keptByLosses s) (fun _ _ h => h) s (SameBase.refl s)
  have station := voteClose_keeps (SameStation.keptByLosses s) (fun _ _ h => h) s ⟨rfl, rfl, leaving⟩
  obtain ⟨profile, response, carrier, clock, pending, -, port, pin, inputs⟩ := base
  obtain ⟨timer, membership, -⟩ := station
  refine ⟨(voteClose s).orders, (voteClose s).queue, (voteClose s).bus, (voteClose s).monitor, ?_⟩
  rw [← profile, ← response, ← carrier, ← clock, ← pending, ← port, ← pin, ← inputs, ← timer, ← membership]

/-! ### The order that is due -/

/-- An order that no open ballot of the station is for stays live, up to its vote field. -/
def OrderStays (own : StationNo) (o : Order) (s : State) : Prop :=
  s.membership.leaving = none ∧ ownNumber s = own ∧ ScheduleDistinct s ∧ (∃ v, { o with vote := v } ∈ liveOrders s) ∧
    ∀ b ∈ openBallots s, (⟨own, b.seq⟩ : OrderId) ≠ o.id

theorem orderStays_ownOrderGone {own : StationNo} {o : Order} {b : Ballot} {s : State} (isOpen : b ∈ openBallots s)
    (h : OrderStays own o s) : OrderStays own o (ownOrderGone b s) := by
  obtain ⟨leaving, number, distinct, ⟨v, held⟩, ballots⟩ := h
  refine ⟨leaving, number, ?_, ⟨v, ?_⟩, fun x hx => ?_⟩
  · show List.Pairwise _ _
    rw [liveOrders_ownOrderGone]
    exact distinct.filter _
  · rw [liveOrders_ownOrderGone]
    refine List.mem_filter.mpr ⟨held, ?_⟩
    have other : o.id ≠ ownId s b.seq := fun same => ballots b isOpen (by rw [same, ownId, number])
    simpa using other
  · rw [openBallots_ownOrderGone] at hx
    exact ballots x (List.mem_of_mem_filter hx)

theorem orderStays_keptByOffers (own : StationNo) (o : Order) : KeptByOffers (fun _ => True) (fun _ => True) (OrderStays own o) where
  post _ _ h := h
  append _ _ _ h := h
  replace _ _ _ _ _ _ h := h
  remove _ _ _ _ _ _ h := h
  displace _ _ _ _ _ _ _ _ _ h := h
  victim _ _ _ _ _ _ _ _ := trivial
  refused _ _ := trivial
  unsent id s := by
    rintro ⟨leaving, number, distinct, ⟨v, held⟩, ballots⟩
    refine ⟨leaving, number, ?_, ?_, ballots⟩
    · show List.Pairwise _ _
      rw [liveOrders_updateOrder, List.pairwise_map]
      refine distinct.imp fun {x y} apart => ?_
      split <;> split <;> exact apart
    · rw [liveOrders_updateOrder]
      by_cases same : o.id = id
      · exact ⟨.unsent, List.mem_map.mpr ⟨_, held, by simp [same]⟩⟩
      · exact ⟨v, List.mem_map.mpr ⟨_, held, by simp [same]⟩⟩
  leaving _ h := h.1
  abandon _ _ _ _ _ _ found h := orderStays_ownOrderGone (ballotWithSeq_some found).1 h
  abort _ _ _ _ _ _ _ := trivial

theorem closingBallot_some {s : State} {b : Ballot} (h : closingBallot s = some b) :
    b ∈ openBallots s ∧ b.target - BitVec.ofNat 16 s.profile.commitLead = nowEpoch s :=
  ⟨List.mem_of_find?_eq_some h, by simpa using List.find?_some h⟩

theorem orderStays_voteClose {own : StationNo} {o : Order} {s : State} (h : OrderStays own o s) : OrderStays own o (voteClose s) := by
  have kept := orderStays_keptByOffers own o
  cases closing : closingBallot s with
  | none => rw [voteClose_none closing]; exact h
  | some b =>
    cases settled : settlesOnBus s b with
    | true => rw [voteClose_settled closing settled]; exact h
    | false =>
      rw [voteClose_open closing settled]
      have gone := orderStays_ownOrderGone (closingBallot_some closing).1 h
      show OrderStays own o (abortWith loseFrame b _ _ s)
      rw [abortWith_eq]
      split
      · exact gone
      · exact kept.offerWith (fun p s hp hs => kept.lose _ hp s hs) trivial _ gone

theorem setsSynced_iff (s : State) (o : Order) : setsSynced s o = true ↔
    o.mode = .restart ∧ ∀ h, s.membership.blindHorizon = some h → aheadOf h o.target = true := by
  unfold setsSynced
  cases s.membership.blindHorizon <;> simp

theorem outputOf_live_iff (state : StationState) (synced : Bool) :
    outputOf state synced = .live ↔ state = .member ∧ synced = true := by
  unfold outputOf
  split
  case isTrue member => cases synced <;> simp [member]
  case isFalse other => simp [other]

/-- A fired order that is applied with a valid tone sets the carrier from its entry (R75, R76). -/
theorem takeTone_synced (i : ToneIndex) (o : Order) (s : State) : (takeTone i o.mode (setsSynced s o) s.carrier).synced = true ↔
    s.carrier.synced = true ∨ (o.mode = .restart ∧ ∀ h, s.membership.blindHorizon = some h → aheadOf h o.target = true) := by
  show (_ || (_ && _)) = true ↔ _
  rw [Bool.or_eq_true, Bool.and_eq_true, setsSynced_iff, decide_eq_true_iff, ← and_assoc, and_self]

theorem leaving_none_of_tables {s : State} (tables : TablesFollowState s) (state : s.membership.state ≠ .leaving) :
    s.membership.leaving = none := by
  cases leaving : s.membership.leaving with
  | none => rfl
  | some l => exact absurd (tables.1.mp (by rw [leaving]; rfl)) state

theorem firedCarrier_unapplied {o : Order} {s : State} (h : ¬ appliedAt s o = true) : firedCarrier o s = s.carrier := if_neg h

theorem firedCarrier_valid {o : Order} {s : State} (h : appliedAt s o = true) (valid : (toneAt s o.tone).valid = true) :
    firedCarrier o s = takeTone o.tone o.mode (setsSynced s o) s.carrier := by
  rw [firedCarrier, if_pos h, if_pos valid]

theorem firedCarrier_silent {o : Order} {s : State} (h : appliedAt s o = true) (valid : (toneAt s o.tone).valid = false) :
    firedCarrier o s = silenceCarrier s.carrier := by
  rw [firedCarrier, if_pos h, if_neg (by rw [valid]; exact Bool.false_ne_true)]

/-- The output becomes LIVE by a fired order exactly at a MEMBER that takes a valid tone and was not in sync (R80). -/
theorem firedLive_iff (o : Order) (s : State) : firedLive o s = true ↔
    appliedAt s o = true ∧ (toneAt s o.tone).valid = true ∧ s.membership.state = .member ∧ s.carrier.synced = false ∧
      (s.carrier.synced = true ∨ (o.mode = .restart ∧ ∀ h, s.membership.blindHorizon = some h → aheadOf h o.target = true)) := by
  have before : outputState s ≠ .live ↔ ¬ (s.membership.state = .member ∧ s.carrier.synced = true) :=
    not_congr (outputOf_live_iff ..)
  unfold firedLive
  rw [Bool.and_eq_true, Bool.and_eq_true, Bool.and_eq_true, bne_iff_ne, beq_iff_eq, before, outputOf_live_iff, takeTone_synced]
  cases s.carrier.synced <;> simp [and_assoc]

/-- The boundary into the target of a live order, after its vote close and its fired order. -/
theorem boundaryActed_fires {g : Grid} {ch : Level} {s : State} {o : Order} {vote : VoteField}
    (leaving : s.membership.leaving = none) (dueAt : orderWithTarget (voteClose (advanceEpoch g ch s))
      (nowEpoch (voteClose (advanceEpoch g ch s))) = some { o with vote := vote }) :
    (boundaryActed g ch s).timer = (advanceEpoch g ch s).timer ∧ (boundaryActed g ch s).carrier = firedCarrier o s ∧
    (boundaryActed g ch s).profile = s.profile ∧ (boundaryActed g ch s).membership.state = s.membership.state ∧
    (boundaryActed g ch s).membership.leaving = none ∧ (boundaryActed g ch s).membership.roster = s.membership.roster ∧
    liveOrders (boundaryActed g ch s) = (liveOrders (voteClose (advanceEpoch g ch s))).filter (fun x => !(x.id == o.id)) ∧
    (boundaryActed g ch s).monitor = firedMonitor o (voteClose (advanceEpoch g ch s)) := by
  obtain ⟨r, q, b, m, closed⟩ := voteClose_eq (s := advanceEpoch g ch s) (by rw [advanceEpoch_eq]; exact leaving)
  have fired := fireDue_some dueAt
  have timer := retireOrder_timer o.id (voteClose (advanceEpoch g ch s))
  have profile := retireOrder_profile o.id (voteClose (advanceEpoch g ch s))
  have membership := retireOrder_membership o.id (voteClose (advanceEpoch g ch s))
  have orders := liveOrders_retireOrder o.id (voteClose (advanceEpoch g ch s))
  have carrier : firedCarrier o (voteClose (advanceEpoch g ch s)) = firedCarrier o s := by
    rw [closed, advanceEpoch_eq]; rfl
  have sameMembership : (voteClose (advanceEpoch g ch s)).membership = s.membership := by rw [closed, advanceEpoch_eq]
  unfold boundaryActed
  rw [fired]
  refine ⟨timer.trans (by rw [closed]), carrier, profile.trans (by rw [closed, advanceEpoch_eq]), ?_, ?_, ?_, orders, rfl⟩
  · show (retireOrder o.id _).membership.state = _
    rw [membership, sameMembership]
  · show (retireOrder o.id _).membership.leaving = _
    rw [membership, sameMembership, leaving]
  · show (retireOrder o.id _).membership.roster = _
    rw [membership, sameMembership]

/-- Settles O36. -/
theorem dueOrderFires : Obligations.DueOrderFires := by
  intro ch s g o hg due inGrid distinct tables held target quietVotes votes applied e synced fired told
  have leaving := leaving_none_of_tables tables fun state => by rw [state] at inGrid; cases inGrid
  have orders : (advanceEpoch g ch s).orders = s.orders := by rw [advanceEpoch_eq]
  have now : nowEpoch (voteClose (advanceEpoch g ch s)) = o.target := by
    obtain ⟨r, q, b, m, closed⟩ := voteClose_eq (s := advanceEpoch g ch s) (by rw [advanceEpoch_eq]; exact leaving)
    rw [target, ← advanceEpoch_now g ch s, closed]; rfl
  have quiet : quietVotes → voteClose (advanceEpoch g ch s) = advanceEpoch g ch s := fun none =>
    voteClose_none ((closingBallot_advance g ch s).mpr none)
  obtain ⟨vote, dueAt⟩ : ∃ vote, orderWithTarget (voteClose (advanceEpoch g ch s))
      (nowEpoch (voteClose (advanceEpoch g ch s))) = some { o with vote := vote } := by
    rw [now]
    rcases votes with none | other
    · refine ⟨o.vote, ?_⟩
      rw [quiet none]
      exact orderWithTarget_eq (scheduleDistinct_of_orders (by rw [orders]) distinct) (by rw [liveOrders_congr orders]; exact held)
    · have start : OrderStays (ownNumber s) o (advanceEpoch g ch s) := by
        refine ⟨by rw [advanceEpoch_eq]; exact leaving, by rw [advanceEpoch_eq]; rfl,
          scheduleDistinct_of_orders (by rw [orders]) distinct, ⟨o.vote, by rw [liveOrders_congr orders]; exact held⟩,
          fun b hb same => ?_⟩
        rw [openBallots_congr orders] at hb
        rcases other with foreign | noBallot
        · exact foreign (by rw [← same])
        · exact noBallot b hb (by rw [← same])
      obtain ⟨-, -, apart, ⟨vote, live⟩, -⟩ := orderStays_voteClose start
      exact ⟨vote, orderWithTarget_eq apart live⟩
  obtain ⟨timer, carrier, sameProfile, state, noLeave, roster, remaining, monitor⟩ := boundaryActed_fires leaving dueAt
  have appliedIff : appliedAt s o = true ↔ applied := by
    show (o.armed && (inMask o.mask s.profile.group && gridState s.membership.state)) = true ↔ _
    rw [inGrid, Bool.and_true, Bool.and_eq_true]
  obtain ⟨timer', carrier', profile', state', -⟩ :=
    (standsAs_keptAtMarks (boundaryActed g ch s)).afterBoundary (g := g) (ch := ch) (s := s) ⟨rfl, rfl, rfl, rfl, noLeave⟩
  have prefixed := (noticesFrom_keptAtMarks (boundaryActed g ch s).monitor.notices).afterBoundary (g := g) (ch := ch) (s := s)
    (List.prefix_refl _)
  have gone := (orderGone_keptAtMarks o.id).afterBoundary (g := g) (ch := ch) (s := s) fun x hx => by
    rw [remaining] at hx
    simpa using (List.mem_filter.mp hx).2
  have toldEq : quietVotes → (boundaryActed g ch s).monitor = told := fun none => by
    rw [monitor, quiet none, firedMonitor]
    have counter : (advanceEpoch g ch s).timer.grid.map (·.counter) = some (g.counter + 1) := by rw [advanceEpoch_grid]; rfl
    have decided : appliedAt (advanceEpoch g ch s) o = decide applied := by
      rw [Bool.eq_iff_iff, decide_eq_true_iff, ← appliedIff, advanceEpoch_eq]; rfl
    have live : firedLive o (advanceEpoch g ch s) = true ↔
        applied ∧ e.valid = true ∧ s.membership.state = .member ∧ s.carrier.synced = false ∧ synced := by
      rw [firedLive_iff, decided, decide_eq_true_iff, advanceEpoch_eq]
      exact Iff.rfl
    have posted : (post (.orderFired o.id (appliedAt (advanceEpoch g ch s) o)) (advanceEpoch g ch s)).monitor = fired := by
      show postNotice (advanceEpoch g ch s).profile.noticeMask ⟨_, (advanceEpoch g ch s).timer.grid.map (·.counter)⟩
        (advanceEpoch g ch s).monitor = _
      rw [counter, decided, advanceEpoch_eq]
    refine if_congr live ?_ posted
    show postNotice (advanceEpoch g ch s).profile.noticeMask ⟨_, (advanceEpoch g ch s).timer.grid.map (·.counter)⟩
      (post (.orderFired o.id (appliedAt (advanceEpoch g ch s) o)) (advanceEpoch g ch s)).monitor = _
    rw [posted, counter, advanceEpoch_eq]
  refine ⟨afterBoundary g ch s, exec_epochBoundary_due hg due ch, gone, ?_, fun no => ?_, fun yes valid => ?_, fun yes valid => ?_,
    state'.trans state, profile'.trans sameProfile, fun none => ?_, fun none plain => ?_, fun mark => ?_⟩
  · rw [timer', timer, advanceEpoch_grid]
  · rw [carrier', carrier, firedCarrier_unapplied (mt appliedIff.mp no)]
  · rw [carrier', carrier, firedCarrier_valid (appliedIff.mpr yes) valid]
    have inSync : (takeTone o.tone o.mode (setsSynced s o) s.carrier).synced = decide synced := by
      rw [Bool.eq_iff_iff, takeTone_synced, decide_eq_true_iff]
    rw [← inSync]
    rfl
  · rw [carrier', carrier, firedCarrier_silent (appliedIff.mpr yes) valid]
    rfl
  · rw [← toldEq none]; exact prefixed
  · have same : afterBoundary g ch s = boundaryActed g ch s := if_neg (by rw [plain]; exact Bool.false_ne_true)
    rw [same]
    refine ⟨?_, toldEq none, ?_, roster⟩
    · rw [remaining, quiet none, liveOrders_congr orders]; rfl
    · rw [timer, advanceEpoch_timer, if_neg (by rw [plain]; exact Bool.false_ne_true)]
  · rw [timer', timer, advanceEpoch_timer, if_pos mark]

end Sys2Proof.Machine
end
section
/-! The vote close: a ballot that no frame on the bus settles ends, and one that a frame settles stays open. -/

namespace Sys2Proof.Machine

/-! ### The ballot of a vote close -/

/-- Two open ballots of one target are the same. -/
theorem ballot_eq_of_target {s : State} {b c : Ballot} (distinct : ScheduleDistinct s) (ballots : BallotsFollowOrders s)
    (hb : b ∈ openBallots s) (hc : c ∈ openBallots s) (target : b.target = c.target) : b = c := by
  obtain ⟨apart, orders⟩ := ballots
  obtain ⟨⟨o, ho, oId, oTarget, -⟩, -⟩ := orders b hb
  obtain ⟨⟨x, hx, xId, xTarget, -⟩, -⟩ := orders c hc
  by_contra other
  have seqs := pairwise_apart (fun _ _ ne => ne.symm) apart hb hc other
  have differ : o ≠ x := by
    rintro rfl
    exact seqs (OrderId.mk.inj (oId.symm.trans xId)).2
  exact (pairwise_apart (fun _ _ ⟨id, target⟩ => ⟨id.symm, target.symm⟩) distinct ho hx differ).2
    (by rw [oTarget, xTarget, target])

theorem closingBallot_eq {s : State} {b : Ballot} (distinct : ScheduleDistinct s) (ballots : BallotsFollowOrders s)
    (hb : b ∈ openBallots s) (now : b.target - BitVec.ofNat 16 s.profile.commitLead = nowEpoch s) : closingBallot s = some b := by
  cases closing : closingBallot s with
  | none => exact absurd now (closingBallot_none.mp closing b hb)
  | some c =>
    obtain ⟨hc, also⟩ := closingBallot_some closing
    have target : b.target = c.target := by
      have same := now.trans also.symm
      rwa [BitVec.sub_left_inj] at same
    rw [ballot_eq_of_target distinct ballots hb hc target]

/-! ### What the fired order takes with it -/

theorem openBallots_retireOrder (id : OrderId) (s : State) : openBallots (retireOrder id s) =
    if id.origin = ownNumber s then (openBallots s).filter fun b => !(b.seq == id.seq) else openBallots s := by
  unfold retireOrder
  show openBallots (purgeOrder id (if id.origin = ownNumber s then _ else _)) = _
  rw [openBallots_congr (purgeOrder_orders ..)]
  split
  · exact openBallots_freeBallot id.seq (removeOrder id s)
  · rfl

theorem mem_openBallots_of_retireOrder {id : OrderId} {s : State} {b : Ballot} (h : b ∈ openBallots (retireOrder id s)) :
    b ∈ openBallots s := by
  rw [openBallots_retireOrder] at h
  split at h
  · exact List.mem_of_mem_filter h
  · exact h

theorem retireOrder_entries (id : OrderId) (s : State) : (retireOrder id s).queue.entries =
    s.queue.entries.filter fun e => !(frameOrderId (ownNumber s) e.payload == some id && !inTransmission s e) := by
  unfold retireOrder
  dsimp only
  split <;> rfl

theorem inTransmission_purgeWhere (p : QueueEntry → Bool) (s : State) (e : QueueEntry) :
    inTransmission (purgeWhere p s) e = inTransmission s e := by
  have sending : (purgeWhere p s).bus.sending = s.bus.sending.map fun a =>
      { a with removeAfter := a.removeAfter || s.queue.entries.any fun e => p e && inTransmission s e } :=
    forgetAttempts_sending ..
  rw [inTransmission, sending, Option.any_map]
  rfl

theorem frameStays_retireOrder {own : StationNo} {x : QueueEntry} {s : State} {id : OrderId}
    (other : frameOrderId own x.payload ≠ some id) (h : FrameStays own x True s) : FrameStays own x True (retireOrder id s) := by
  obtain ⟨leaving, number, held, ident, apart, ballots⟩ := h
  have profile := retireOrder_profile id s
  have next : (retireOrder id s).queue.nextIdent = s.queue.nextIdent := by unfold retireOrder; dsimp only; split <;> rfl
  refine ⟨by rw [retireOrder_membership]; exact leaving, by rw [ownNumber, profile]; exact number, ?_, by rw [next]; exact ident,
    fun e he => ?_, fun closed b hb => ballots closed b (mem_openBallots_of_retireOrder hb)⟩
  · rw [retireOrder_entries, number]
    refine List.mem_filter.mpr ⟨held, ?_⟩
    have unpicked : (frameOrderId own x.payload == some id) = false := beq_eq_false_iff_ne.mpr other
    rw [unpicked]; rfl
  · rw [retireOrder_entries] at he
    exact apart e (List.mem_of_mem_filter he)

/-! ### What a mark boundary leaves of the frames and the ballots -/

theorem openBallots_seq_electorOut {n : StationNo} {s : State} {P : Seq → Prop} (h : ∀ b ∈ openBallots s, P b.seq) :
    ∀ b ∈ openBallots (electorOut n s), P b.seq := by
  intro b hb
  rw [openBallots_electorOut] at hb
  obtain ⟨x, hx, rfl⟩ := List.mem_map.mp hb
  exact h x hx

theorem openBallots_seq_committing {q : Seq} {s : State} {P : Seq → Prop} (h : ∀ b ∈ openBallots s, P b.seq) :
    ∀ b ∈ openBallots (updateBallot q (fun x => { x with state := .committing }) s), P b.seq := by
  intro b hb
  rw [openBallots_updateBallot] at hb
  obtain ⟨x, hx, rfl⟩ := List.mem_map.mp hb
  split <;> exact h x hx

/-- An ABORT whose ballot is gone stays over a mark boundary. -/
theorem frameStays_keptAtMarks {own : StationNo} {x : QueueEntry} (abort : payloadKind x.payload = .abort) :
    KeptAtMarks (FrameStays own x True) := by
  have ids : ∀ {s : State} {f : State → State}, (∀ P : Seq → Prop, (∀ b ∈ openBallots s, P b.seq) → ∀ b ∈ openBallots (f s), P b.seq) →
      (True → ∀ b ∈ openBallots s, frameOrderId own x.payload ≠ some ⟨own, b.seq⟩) →
      True → ∀ b ∈ openBallots (f s), frameOrderId own x.payload ≠ some ⟨own, b.seq⟩ := fun seqs h closed =>
    seqs (fun q => frameOrderId own x.payload ≠ some ⟨own, q⟩) (h closed)
  refine (frameStays_keptByOffers own x True).keptAtMarks (fun _ _ => ⟨.inl trivial, abort⟩) (fun b s _ _ h => ⟨⟨.inl trivial, abort⟩, ?_⟩)
    (fun n s h => ?_) (fun p s epochs h => ?_) fun s m _ leaving _ h => ?_
  · obtain ⟨leaving, number, held, ident, apart, ballots⟩ := h
    exact ⟨leaving, number, held, ident, apart, ids (f := updateBallot b.seq _) (fun _ => openBallots_seq_committing) ballots⟩
  · obtain ⟨leaving, number, held, ident, apart, ballots⟩ := h
    exact ⟨leaving, number, held, ident, apart, ids (f := electorOut n) (fun _ => openBallots_seq_electorOut) ballots⟩
  · obtain ⟨leaving, number, held, ident, apart, ballots⟩ := h
    refine ⟨leaving, number, List.mem_filter.mpr ⟨held, ?_⟩, ident, fun e he => apart e (List.mem_of_mem_filter he), ballots⟩
    have unpicked : p x = false := by
      by_contra picked
      have epoch := epochs x (by simpa using picked)
      rw [abort] at epoch; cases epoch
    rw [unpicked]; rfl
  · obtain ⟨before, number, held, ident, apart, ballots⟩ := h
    exact ⟨leaving.trans before, number, held, ident, apart, ballots⟩

/-- The frames of an order whose ballot is gone over a mark boundary. -/
theorem orderFrames_keptAtMarks (own : StationNo) (seq : Seq) (good : QueueEntry → Prop) :
    KeptAtMarks (OrderFrames own seq good) := by
  refine (orderFrames_keptByOffers own seq good).keptAtMarks (fun _ _ _ _ absurd => by cases absurd)
    (fun b s found _ h => ⟨fun e _ order => ?_, ?_⟩) (fun n s h => ?_) (fun p s _ h => ?_) fun s m _ leaving _ h => ?_
  · obtain ⟨-, -, ballots, -⟩ := h
    exact absurd (OrderId.mk.inj (Option.some.inj order)).2 (ballots b (ballotWithSeq_some found).1)
  · obtain ⟨leaving, number, ballots, frames⟩ := h
    exact ⟨leaving, number, openBallots_seq_committing (P := (· ≠ seq)) ballots, frames⟩
  · obtain ⟨leaving, number, ballots, frames⟩ := h
    exact ⟨leaving, number, openBallots_seq_electorOut (P := (· ≠ seq)) ballots, frames⟩
  · obtain ⟨leaving, number, ballots, frames⟩ := h
    exact ⟨leaving, number, ballots, fun e he => frames e (List.mem_of_mem_filter he)⟩
  · obtain ⟨before, number, ballots, frames⟩ := h
    exact ⟨leaving.trans before, number, ballots, frames⟩

theorem ownGone_keptAtMarks (id : OrderId) (seq : Seq) : KeptAtMarks (OwnGone id seq) :=
  (ownGone_keptByLosses id seq).keptAtMarks (fun _ _ h => ⟨h.1, openBallots_seq_committing (P := (· ≠ seq)) h.2⟩)
    (fun _ _ h => ⟨h.1, openBallots_seq_electorOut (P := (· ≠ seq)) h.2⟩) (fun _ _ h => h) fun _ _ _ _ _ h => h

/-- A ballot that waits for a frame on the bus stays open: no waiting frame is one that its loss would abort. -/
def BallotStays (own : StationNo) (b : Ballot) (s : State) : Prop :=
  s.membership.leaving = none ∧ ownNumber s = own ∧ (openBallots s).Pairwise (fun x y => x.seq ≠ y.seq) ∧
    (∃ x ∈ openBallots s, x.seq = b.seq ∧ x.target = b.target ∧ x.state = b.state) ∧
    ∀ e ∈ s.queue.entries, ballotFrame own b e.payload = true → inTransmission s e = true

theorem ballot_eq_of_seq {s : State} {b c : Ballot} (apart : (openBallots s).Pairwise fun x y => x.seq ≠ y.seq)
    (hb : b ∈ openBallots s) (hc : c ∈ openBallots s) (seq : b.seq = c.seq) : b = c := by
  by_contra differ
  exact pairwise_apart (fun _ _ ne => ne.symm) apart hb hc differ seq

theorem carriesBallot_congr {b c : Ballot} (state : b.state = c.state) (p : Payload) : carriesBallot b p = carriesBallot c p := by
  rw [carriesBallot, state]; rfl

theorem ballotFrame_abort (own : StationNo) (b : Ballot) (seq : Seq) (target : Epoch) (reason : AbortReason) (refuser : StationNo) :
    ballotFrame own b (.abort seq target reason refuser) = false := by
  simp [ballotFrame, carriesBallot, payloadKind]

theorem ballotFrame_hello (own : StationNo) (b : Ballot) (state : HelloState) (group : Group) (digest : Digest) :
    ballotFrame own b (.hello state group digest) = false := by
  simp [ballotFrame, frameOrderId]

/-- The frame that carries another open ballot is not the one that the ballot waits for. -/
theorem BallotStays.other {own : StationNo} {b c : Ballot} {s : State} {p : Payload} (h : BallotStays own b s)
    (found : c ∈ openBallots s) (order : frameOrderId own p = some ⟨own, c.seq⟩) (carries : carriesBallot c p = true)
    (notWaiting : ballotFrame own b p = false) : c.seq ≠ b.seq := by
  obtain ⟨-, -, apart, ⟨x, hx, seq, -, state⟩, -⟩ := h
  intro same
  have one := ballot_eq_of_seq apart found hx (same.trans seq.symm)
  have carried : ballotFrame own b p = true := by
    rw [ballotFrame, carriesBallot_congr (state.symm.trans (congrArg Ballot.state one.symm)), carries, order, same]
    simp
  rw [carried] at notWaiting; cases notWaiting

theorem ballotStays_ownOrderGone {own : StationNo} {b c : Ballot} {s : State} (other : c.seq ≠ b.seq) (h : BallotStays own b s) :
    BallotStays own b (ownOrderGone c s) := by
  obtain ⟨leaving, number, apart, ⟨x, hx, seq, target, state⟩, frames⟩ := h
  refine ⟨leaving, number, ?_, ⟨x, ?_, seq, target, state⟩, fun e he waits => ?_⟩
  · rw [openBallots_ownOrderGone]; exact apart.filter _
  · rw [openBallots_ownOrderGone]
    exact List.mem_filter.mpr ⟨hx, by simpa [seq] using other.symm⟩
  · exact (inTransmission_purgeWhere _ _ e).trans (frames e (List.mem_of_mem_filter he) waits)

theorem ballotStays_keptByOffers (own : StationNo) (b : Ballot) : KeptByOffers (fun p => ballotFrame own b p = false)
    (fun p => ballotFrame own b p = false) (BallotStays own b) where
  post _ _ h := h
  append := by
    rintro p s quiet ⟨leaving, number, apart, stays, frames⟩
    refine ⟨leaving, number, apart, stays, fun e he waits => ?_⟩
    rcases List.mem_append.mp he with old | new
    · exact frames e old waits
    · rw [List.mem_singleton.mp new, quiet] at waits; cases waits
  replace := by
    rintro p e s quiet - - ⟨leaving, number, apart, stays, frames⟩
    refine ⟨leaving, number, apart, stays, fun y hy waits => ?_⟩
    obtain ⟨z, hz, rfl⟩ := List.mem_map.mp hy
    split at waits
    · rw [quiet] at waits; cases waits
    · rename_i kept; rw [if_neg kept]
      exact (inTransmission_congr (forgetAttempts_sending ..) z).trans (frames z hz waits)
  remove := fun p e s _ _ _ ⟨leaving, number, apart, stays, frames⟩ =>
    ⟨leaving, number, apart, stays, fun x hx waits =>
      (inTransmission_congr (forgetAttempts_sending ..) x).trans (frames x (List.mem_of_mem_filter hx) waits)⟩
  displace := by
    rintro p a e s - - - sending ident ⟨leaving, number, apart, stays, frames⟩
    refine ⟨leaving, number, apart, stays, fun x hx waits => ?_⟩
    obtain ⟨held, other⟩ := List.mem_filter.mp hx
    have sent := frames x held waits
    simp only [inTransmission, sending, Option.any_some, Bool.and_eq_true, beq_iff_eq] at sent
    simp [← ident, sent.1] at other
  victim := by
    rintro p e s - he - waits ⟨-, -, -, -, frames⟩
    refine Bool.eq_false_iff.mpr fun awaited => ?_
    rw [frames e he awaited] at waits; cases waits
  refused _ h := h
  unsent _ _ h := h
  leaving _ h := h.1
  abandon := by
    rintro p c s quiet order carries found h
    obtain ⟨-, number, -⟩ := id h
    rw [ownId, number] at order
    exact ballotStays_ownOrderGone (h.other (ballotWithSeq_some found).1 order carries quiet) h
  abort _ _ _ _ _ _ _ := ballotFrame_abort ..

theorem ballotStays_keptAtMarks {own : StationNo} {b : Ballot} (settled : b.state ≠ .collecting) : KeptAtMarks (BallotStays own b) := by
  refine (ballotStays_keptByOffers own b).keptAtMarks (fun _ _ => ballotFrame_hello ..) (fun c s found collecting h => ?_)
    (fun n s h => ?_) (fun p s _ h => ?_) fun s m _ leaving _ h => ?_
  · obtain ⟨leaving, number, apart, ⟨x, hx, seq, target, state⟩, frames⟩ := h
    have other : c.seq ≠ b.seq := fun same => by
      have one := ballot_eq_of_seq apart (ballotWithSeq_some found).1 hx (same.trans seq.symm)
      exact settled (state.symm.trans (one ▸ collecting))
    refine ⟨by simpa [ballotFrame, frameOrderId] using fun _ => other, leaving, number, ?_, ⟨x, ?_, seq, target, state⟩, frames⟩
    · rw [openBallots_updateBallot, List.pairwise_map]
      refine apart.imp fun {y z} ne => ?_
      split <;> split <;> exact ne
    · rw [openBallots_updateBallot]
      exact List.mem_map.mpr ⟨x, hx, if_neg (by simpa [seq] using other.symm)⟩
  · obtain ⟨leaving, number, apart, ⟨x, hx, seq, target, state⟩, frames⟩ := h
    refine ⟨leaving, number, ?_, ⟨withoutElector n x, ?_, seq, target, state⟩, frames⟩
    · rw [openBallots_electorOut, List.pairwise_map]; exact apart
    · rw [openBallots_electorOut]; exact List.mem_map_of_mem hx
  · obtain ⟨leaving, number, apart, stays, frames⟩ := h
    exact ⟨leaving, number, apart, stays, fun e he waits =>
      (inTransmission_purgeWhere p s e).trans (frames e (List.mem_of_mem_filter he) waits)⟩
  · obtain ⟨before, number, apart, stays, frames⟩ := h
    exact ⟨leaving.trans before, number, apart, stays, frames⟩

/-! ### The outcome of a vote close -/

/-- A property of the state after the vote close that a fired order and the actions of a mark boundary keep. -/
theorem boundary_keeps {P : State → Prop} (h : KeptAtMarks P) (clears : ∀ s, P s → P (clearBlindHorizon s)) {g : Grid}
    {ch : Level} {s u : State} (closed : voteClose (advanceEpoch g ch s) = u) (hu : P u)
    (fires : ∀ o, orderWithTarget u (nowEpoch u) = some o →
      P { retireOrder o.id u with carrier := firedCarrier o u, monitor := firedMonitor o u }) :
    P (afterBoundary g ch s) := by
  refine h.afterBoundary (clears _ ?_)
  rw [closed]
  exact fireDue_keeps u hu fires

/-- What an unsettled vote close leaves to the rest of the boundary: neither order nor ballot, and the notice. -/
theorem boundary_after_abort {g : Grid} {ch : Level} {s : State} {b : Ballot} {reason : AbortReason}
    (closed : voteClose (advanceEpoch g ch s) = abortOwn b reason (ownNumber s) (advanceEpoch g ch s)) :
    OwnGone (ownId s b.seq) b.seq (afterBoundary g ch s) ∧
    (abortOwn b reason (ownNumber s) (advanceEpoch g ch s)).monitor.notices <+: (afterBoundary g ch s).monitor.notices := by
  have number : ownId (advanceEpoch g ch s) b.seq = ownId s b.seq := by rw [advanceEpoch_eq]; rfl
  have gone := ownGone_abortWith Config.lossDepth b reason (ownNumber s) (advanceEpoch g ch s)
  rw [number] at gone
  refine ⟨boundary_keeps (ownGone_keptAtMarks _ _) (fun _ h => h) closed gone fun o _ => ?_,
    boundary_keeps (noticesFrom_keptAtMarks _) (fun _ h => h) closed (List.prefix_refl _) fun o _ => firedMonitor_notices o _⟩
  refine ownGone_fewer (s := abortOwn b reason (ownNumber s) (advanceEpoch g ch s)) (fun x hx => ?_)
    (fun x hx => mem_openBallots_of_retireOrder hx) gone
  have hx : x ∈ liveOrders (retireOrder o.id _) := hx
  rw [liveOrders_retireOrder] at hx
  exact List.mem_of_mem_filter hx

/-- The ABORT of a vote close that finds a free place is held after the boundary. -/
theorem abort_held_after_close {g : Grid} {ch : Level} {s : State} {b : Ballot} (limits : QueueInLimits s)
    (leaving : s.membership.leaving = none) (room : s.queue.entries.length < 8)
    (closed : voteClose (advanceEpoch g ch s) = abortOwn b .timeout (ownNumber s) (advanceEpoch g ch s)) :
    ∃ e ∈ (afterBoundary g ch s).queue.entries, e.payload = .abort b.seq b.target .timeout (ownNumber s) := by
  have gone : OwnGone (ownId s b.seq) b.seq (ownOrderGone b (advanceEpoch g ch s)) := by
    have := ownGone_ownOrderGone b (advanceEpoch g ch s)
    rw [advanceEpoch_eq] at this ⊢
    exact this
  have taken : abortOwn b .timeout (ownNumber s) (advanceEpoch g ch s) = post (.orderAborted (ownNumber s) (ownId s b.seq) .timeout)
      (appendFrame (.abort b.seq b.target .timeout (ownNumber s)) (ownOrderGone b (advanceEpoch g ch s))) := by
    have fewer : (ownOrderGone b (advanceEpoch g ch s)).queue.entries.length ≤ s.queue.entries.length := by
      rw [advanceEpoch_eq]; exact List.length_filter_le ..
    have added := offer_room (.abort b.seq b.target .timeout (ownNumber s)) (ownOrderGone b (advanceEpoch g ch s))
      (fun _ _ => rfl) (by omega)
    rw [← added, advanceEpoch_eq]
    rfl
  have inLimits : QueueInLimits (ownOrderGone b (advanceEpoch g ch s)) := queueInLimits_ownOrderGone b (by rw [advanceEpoch_eq]; exact limits)
  obtain ⟨-, -, idents, -, -⟩ := inLimits
  generalize own : ownOrderGone b (advanceEpoch g ch s) = u at *
  have start : FrameStays (ownNumber s) ⟨u.queue.nextIdent, u.queue.nextIdent, .abort b.seq b.target .timeout (ownNumber s)⟩ True
      (abortOwn b .timeout (ownNumber s) (advanceEpoch g ch s)) := by
    rw [taken]
    refine ⟨by rw [← own, advanceEpoch_eq]; exact leaving, by rw [← own, advanceEpoch_eq]; rfl,
      List.mem_append_right _ (List.mem_singleton.mpr rfl), Nat.lt_succ_self _, fun e he => ?_, fun _ x hx same => ?_⟩
    · rcases List.mem_append.mp he with old | new
      · exact .inr ⟨(idents e old).2.ne, .inl trivial⟩
      · exact .inl (List.mem_singleton.mp new)
    · exact gone.2 x hx (OrderId.mk.inj (Option.some.inj same)).2.symm
  obtain ⟨-, -, held, -⟩ := boundary_keeps (frameStays_keptAtMarks rfl) (fun _ h => h) closed start fun o due =>
    frameStays_retireOrder (fun same => by
      have live := (orderWithTarget_some due).1
      rw [taken] at live
      exact gone.1 o live (Option.some.inj same).symm) start
  exact ⟨_, held, rfl⟩

theorem orderFrames_retireOrder {own : StationNo} {seq : Seq} {good : QueueEntry → Prop} {s : State} (id : OrderId)
    (h : OrderFrames own seq good s) : OrderFrames own seq good (retireOrder id s) := by
  obtain ⟨leaving, number, ballots, frames⟩ := h
  refine ⟨by rw [retireOrder_membership]; exact leaving, by rw [ownNumber, retireOrder_profile]; exact number,
    fun b hb => ballots b (mem_openBallots_of_retireOrder hb), fun e he => ?_⟩
  rw [retireOrder_entries] at he
  exact frames e (List.mem_of_mem_filter he)

theorem mem_openBallots_retireOrder {id : OrderId} {s : State} {b : Ballot} (hb : b ∈ openBallots s)
    (other : id ≠ ⟨ownNumber s, b.seq⟩) : b ∈ openBallots (retireOrder id s) := by
  rw [openBallots_retireOrder]
  split
  case isTrue own =>
    refine List.mem_filter.mpr ⟨hb, ?_⟩
    have differ : b.seq ≠ id.seq := fun same => other (by rw [← own, same])
    simpa using differ
  case isFalse => exact hb

theorem ballotStays_retireOrder {b : Ballot} {s : State} {id : OrderId} (other : id ≠ ⟨ownNumber s, b.seq⟩) (h : BallotStays (ownNumber s) b s) :
    BallotStays (ownNumber s) b (retireOrder id s) := by
  obtain ⟨leaving, -, apart, ⟨x, hx, seq, target, state⟩, frames⟩ := h
  refine ⟨by rw [retireOrder_membership]; exact leaving, by rw [ownNumber, retireOrder_profile]; rfl, ?_,
    ⟨x, mem_openBallots_retireOrder hx (by rw [seq]; exact other), seq, target, state⟩, fun e he waits => ?_⟩
  · rw [openBallots_retireOrder]
    split
    · exact apart.filter _
    · exact apart
  · rw [retireOrder_entries] at he
    have same : inTransmission (retireOrder id s) e = inTransmission s e := by
      unfold retireOrder
      dsimp only
      split <;> exact inTransmission_purgeWhere _ _ e
    exact same.trans (frames e (List.mem_of_mem_filter he) waits)

/-- A ballot that a frame on the bus settles is open after the boundary, up to its electorate. -/
theorem ballot_open_after_close {g : Grid} {ch : Level} {s : State} {b : Ballot} (leaving : s.membership.leaving = none)
    (distinct : ScheduleDistinct s) (ballots : BallotsFollowOrders s) (hb : b ∈ openBallots s) (early : b.target ≠ g.counter + 1)
    (settledState : b.state ≠ .collecting)
    (closed : voteClose (advanceEpoch g ch s) =
      purgeWhere (fun e => ballotFrame (ownNumber s) b e.payload) (advanceEpoch g ch s)) :
    (∃ x ∈ openBallots (afterBoundary g ch s), x.seq = b.seq ∧ x.target = b.target ∧ x.state = b.state) ∧
    (isMarkEpoch s.profile (g.counter + 1) = false → b ∈ openBallots (afterBoundary g ch s)) := by
  have orders : (advanceEpoch g ch s).orders = s.orders := by rw [advanceEpoch_eq]
  have number : ownNumber (advanceEpoch g ch s) = ownNumber s := by rw [advanceEpoch_eq]; rfl
  have stillNone : (advanceEpoch g ch s).membership.leaving = none := by rw [advanceEpoch_eq]; exact leaving
  obtain ⟨apart, orders'⟩ := ballots
  obtain ⟨⟨o, ho, oId, oTarget, -⟩, -⟩ := orders' b hb
  generalize u_eq : purgeWhere (fun e => ballotFrame (ownNumber s) b e.payload) (advanceEpoch g ch s) = u at closed
  have uOrders : u.orders = s.orders := by rw [← u_eq]; exact orders
  have uNumber : ownNumber u = ownNumber s := by rw [← u_eq]; exact number
  have uNow : nowEpoch u = g.counter + 1 := by rw [← u_eq]; exact advanceEpoch_now g ch s
  have hbu : b ∈ openBallots u := by rw [openBallots_congr uOrders]; exact hb
  have other : ∀ x, orderWithTarget u (nowEpoch u) = some x → x.id ≠ ⟨ownNumber u, b.seq⟩ := fun x due same => by
    obtain ⟨live, target⟩ := orderWithTarget_some due
    rw [liveOrders_congr uOrders] at live
    rw [uNumber] at same
    have one : x = o := by
      by_contra differ
      exact (pairwise_apart (fun _ _ ⟨id, target⟩ => ⟨id.symm, target.symm⟩) distinct live ho differ).1 (same.trans oId.symm)
    exact early (by rw [← oTarget, ← one, target, uNow])
  have start : BallotStays (ownNumber u) b u := by
    refine ⟨by rw [← u_eq]; exact stillNone, rfl, by rw [openBallots_congr uOrders]; exact apart, ⟨b, hbu, rfl, rfl, rfl⟩,
      fun e he waits => ?_⟩
    rw [uNumber] at waits
    rw [← u_eq] at he ⊢
    exact (inTransmission_purgeWhere _ _ e).trans ((inTransmission_of_purged he).2 waits)
  refine ⟨?_, fun plain => ?_⟩
  · obtain ⟨-, -, -, stays, -⟩ := boundary_keeps (ballotStays_keptAtMarks settledState) (fun _ h => h) closed start
      fun x due => ballotStays_retireOrder (other x due) start
    exact stays
  · have same : afterBoundary g ch s = boundaryActed g ch s := if_neg (by rw [plain]; exact Bool.false_ne_true)
    rw [same, boundaryActed, closed]
    exact fireDue_keeps (P := fun t => b ∈ openBallots t) u hbu fun x due => mem_openBallots_retireOrder hbu (other x due)

/-- Settles O37. -/
theorem voteCloseEndsUnsettledBallots : Obligations.VoteCloseEndsUnsettledBallots := by
  intro ch s g b hg due tables distinct ballots limits hb now settledByFrame reason
  have member : s.membership.state = .member := by
    by_contra other
    rw [tables.2.2.2 other] at hb; cases hb
  have leaving : (advanceEpoch g ch s).membership.leaving = none := by
    rw [advanceEpoch_eq]
    exact leaving_none_of_tables tables (by rw [member]; decide)
  have orders : (advanceEpoch g ch s).orders = s.orders := by rw [advanceEpoch_eq]
  have closing : closingBallot (advanceEpoch g ch s) = some b := by
    have same : closingBallot (advanceEpoch g ch s) = closingBallot { s with timer := { s.timer with grid := some ⟨g.counter + 1, 0, 0, false⟩ } } := by
      rw [closingBallot, closingBallot, openBallots_congr orders, advanceEpoch_now, advanceEpoch_eq]
      rfl
    rw [same]
    exact closingBallot_eq (s := { s with timer := { s.timer with grid := some ⟨g.counter + 1, 0, 0, false⟩ } }) distinct ballots hb now
  have settledIff : settlesOnBus (advanceEpoch g ch s) b = true ↔ settledByFrame := by
    rw [advanceEpoch_eq]
    show (_ && _ || _ && _) = true ↔ _
    simp only [Bool.or_eq_true, Bool.and_eq_true, beq_iff_eq]
    exact Iff.rfl
  have number : ownNumber (advanceEpoch g ch s) = ownNumber s := by rw [advanceEpoch_eq]; rfl
  refine ⟨afterBoundary g ch s, exec_epochBoundary_due hg due ch, fun unsettled => ?_, fun settled early => ?_⟩
  · have closed := voteClose_open closing (Bool.eq_false_iff.mpr (mt settledIff.mp unsettled))
    rw [number] at closed
    obtain ⟨gone, notices⟩ := boundary_after_abort closed
    refine ⟨gone.1, gone.2, fun room => ⟨?_, fun sent => ?_⟩, fun unsent e he abort order => ?_⟩
    · obtain ⟨-, -, -, -, -, monitor, -⟩ := abortEndsAnOwnOrder b (closeReason b) (ownNumber s) (advanceEpoch g ch s)
        (by rw [advanceEpoch_eq]; exact limits) leaving
      have undisturbed := monitor (.inr (by rw [advanceEpoch_eq]; exact room))
      have posted : (abortOwn b (closeReason b) (ownNumber s) (advanceEpoch g ch s)).monitor = postNotice s.profile.noticeMask
          ⟨.orderAborted (ownNumber s) (ownId s b.seq) reason, some (g.counter + 1)⟩ s.monitor := by
        rw [undisturbed]
        show postNotice (advanceEpoch g ch s).profile.noticeMask ⟨_, (advanceEpoch g ch s).timer.grid.map (·.counter)⟩
          (advanceEpoch g ch s).monitor = _
        rw [advanceEpoch_grid, advanceEpoch_eq]
        rfl
      rw [← posted]
      exact notices
    · have timeout : closeReason b = .timeout := if_neg sent
      rw [timeout] at closed
      rw [advanceEpoch_eq] at leaving
      exact abort_held_after_close limits leaving room closed
    · have quiet : closeReason b = .unsent := if_pos unsent
      rw [quiet] at closed
      obtain ⟨-, others, frames, -⟩ := abortEndsAnOwnOrder b .unsent (ownNumber s) (advanceEpoch g ch s)
        (by rw [advanceEpoch_eq]; exact limits) leaving
      have start : OrderFrames (ownNumber s) b.seq (fun e => e ∈ s.queue.entries ∧ inTransmission s e = true)
          (abortOwn b .unsent (ownNumber s) (advanceEpoch g ch s)) := by
        obtain ⟨profile, -⟩ := abortOwn_base b .unsent (ownNumber s) (advanceEpoch g ch s)
        obtain ⟨-, membership⟩ := abortOwn_station b .unsent (ownNumber s) (advanceEpoch g ch s) leaving
        refine ⟨by rw [membership]; exact leaving, by rw [ownNumber, profile]; exact number, others, fun e he order => ?_⟩
        have sameId : ownId (advanceEpoch g ch s) b.seq = ownId s b.seq := by rw [ownId, number]; rfl
        rw [number, sameId] at frames
        rcases frames e he order with ⟨held, sent⟩ | ⟨-, absurd⟩
        · rw [advanceEpoch_eq] at held sent
          exact ⟨held, sent⟩
        · exact (absurd rfl).elim
      obtain ⟨-, -, -, kept⟩ := boundary_keeps (orderFrames_keptAtMarks _ _ _) (fun _ h => h) closed start
        fun o _ => orderFrames_retireOrder o.id start
      exact kept e he order
  · have closed := voteClose_settled closing (settledIff.mpr settled)
    rw [number] at closed
    have settledState : b.state ≠ .collecting := fun collecting => by
      rcases settled with ⟨state, -⟩ | ⟨state, -⟩ <;> rw [collecting] at state <;> cases state
    rw [advanceEpoch_eq] at leaving
    exact ballot_open_after_close leaving distinct ballots hb early settledState closed

end Sys2Proof.Machine
end
section
/-! A mark boundary at a MEMBER or ARRIVING station with no ballot open and no order due. -/

namespace Sys2Proof.Machine

/-! ### The silent peers -/

theorem electorOut_of_none {s : State} (h : openBallots s = []) (n : StationNo) : electorOut n s = s := by
  have slots : s.orders.ballots.map (Option.map (withoutElector n)) = s.orders.ballots := by
    refine Table.ext_get fun i => ?_
    rw [Table.get_map]
    cases slot : s.orders.ballots.get i with
    | none => rfl
    | some b =>
      have isOpen : b ∈ openBallots s := (Table.mem_held _ _).mpr ⟨i, slot⟩
      rw [h] at isOpen; cases isOpen
  rw [electorOut, slots]

theorem losePeer_of_none {s : State} (h : openBallots s = []) (grid : gridState s.membership.state = true) {n : StationNo}
    (foreign : n ≠ ownNumber s) (how : PeerLoss) : losePeer n how s =
      { s with
        membership := { s.membership with roster := s.membership.roster.set n RosterEntry.absent }
        monitor := postNotice s.profile.noticeMask ⟨.peerLost n how, s.timer.grid.map (·.counter)⟩ s.monitor } := by
  have gone : peerGone n how s =
      { s with
        membership := { s.membership with roster := s.membership.roster.set n RosterEntry.absent }
        monitor := postNotice s.profile.noticeMask ⟨.peerLost n how, s.timer.grid.map (·.counter)⟩ s.monitor } := by
    rw [peerGone, if_pos grid, setRoster_foreign foreign]
    rfl
  have none : openBallots (peerGone n how s) = [] := by rw [openBallots_congr (peerGone_orders ..)]; exact h
  rw [losePeer_eq, loseElector_eq, none, electorOut_of_none none, gone]
  rfl

/-- The Monitor after peers were lost by silence, in their order. -/
def silentNotices (mask : BitVec 18) (counter : Option Epoch) (lost : List StationNo) (m : Monitor) : Monitor :=
  lost.foldl (fun m n => postNotice mask ⟨.peerLost n .silent, counter⟩ m) m

/-- The Roster after peers were lost. -/
def rosterWithout (lost : List StationNo) (r : Table RosterEntry 32) : Table RosterEntry 32 :=
  lost.foldl (fun r n => r.set n RosterEntry.absent) r

theorem rosterWithout_get (lost : List StationNo) (r : Table RosterEntry 32) (n : StationNo) :
    (rosterWithout lost r).get n = if n ∈ lost then RosterEntry.absent else r.get n := by
  unfold rosterWithout
  induction lost generalizing r with
  | nil => simp
  | cons m lost ih =>
    rw [List.foldl_cons, ih, Table.get_set]
    by_cases same : n = m <;> simp [same]

theorem foldl_losePeer_of_none (lost : List StationNo) {s : State} (h : openBallots s = [])
    (grid : gridState s.membership.state = true) (foreign : ∀ n ∈ lost, n ≠ ownNumber s) :
    lost.foldl (fun t n => losePeer n .silent t) s =
      { s with
        membership := { s.membership with roster := rosterWithout lost s.membership.roster }
        monitor := silentNotices s.profile.noticeMask (s.timer.grid.map (·.counter)) lost s.monitor } := by
  induction lost generalizing s with
  | nil => rfl
  | cons n lost ih =>
    rw [List.foldl_cons, losePeer_of_none h grid (foreign n List.mem_cons_self)]
    exact ih (s := { s with
        membership := { s.membership with roster := s.membership.roster.set n RosterEntry.absent }
        monitor := postNotice s.profile.noticeMask ⟨.peerLost n .silent, s.timer.grid.map (·.counter)⟩ s.monitor })
      h grid fun m hm => foreign m (List.mem_cons_of_mem _ hm)

/-- The peers whose silence reaches the limit at a mark boundary. -/
def silentPeers (s : State) : List StationNo :=
  allStations.filter fun n => (rosterEntry s n).presence != .absent &&
    decide (s.profile.silenceLimit ≤ (rosterEntry s n).silence + 1)

/-- The Roster after a mark boundary. -/
def silencedRoster (s : State) : Table RosterEntry 32 :=
  rosterWithout (silentPeers s) (s.membership.roster.map fun e => if isPresent e then { e with silence := e.silence + 1 } else e)

theorem countSilence_of_none {s : State} (h : openBallots s = []) (grid : gridState s.membership.state = true)
    (own : rosterEntry s (ownNumber s) = RosterEntry.absent) : countSilence s =
      { s with
        membership := { s.membership with roster := silencedRoster s }
        monitor := silentNotices s.profile.noticeMask (s.timer.grid.map (·.counter)) (silentPeers s) s.monitor } := by
  have lost : (allStations.filter fun n =>
      isPresent ((s.membership.roster.map fun e => if isPresent e then { e with silence := e.silence + 1 } else e).get n) &&
        decide (s.profile.silenceLimit ≤
          ((s.membership.roster.map fun e => if isPresent e then { e with silence := e.silence + 1 } else e).get n).silence)) =
      silentPeers s := by
    refine List.filter_congr fun n _ => ?_
    rw [Table.get_map]
    show _ = (isPresent (s.membership.roster.get n) && decide (_ ≤ (s.membership.roster.get n).silence + 1))
    by_cases present : isPresent (s.membership.roster.get n) = true
    · rw [if_pos present]
      rfl
    · rw [if_neg present, Bool.eq_false_iff.mpr present]
      rfl
  unfold countSilence
  dsimp only
  rw [lost]
  refine foldl_losePeer_of_none (silentPeers s) (s := { s with membership := { s.membership with
    roster := s.membership.roster.map fun e => if isPresent e then { e with silence := e.silence + 1 } else e } }) h grid
    fun n hn same => ?_
  have present := (List.mem_filter.mp hn).2
  have absent : rosterEntry s n = RosterEntry.absent := (congrArg (rosterEntry s) same).trans own
  rw [absent] at present
  cases present

theorem silencedRoster_get (s : State) (n : StationNo) : (silencedRoster s).get n =
    if (rosterEntry s n).presence = .absent then rosterEntry s n
    else if (rosterEntry s n).silence + 1 < s.profile.silenceLimit then
      { rosterEntry s n with silence := (rosterEntry s n).silence + 1 }
    else RosterEntry.absent := by
  have listed : n ∈ silentPeers s ↔ ¬ (rosterEntry s n).presence = .absent ∧
      ¬ (rosterEntry s n).silence + 1 < s.profile.silenceLimit := by
    simp [silentPeers, allStations]
  have present := isPresent_iff (rosterEntry s n)
  rw [silencedRoster, rosterWithout_get, Table.get_map]
  refine (if_congr listed rfl (if_congr present rfl rfl)).trans ?_
  show (if _ then RosterEntry.absent else if ¬ (rosterEntry s n).presence = Presence.absent then
    { rosterEntry s n with silence := (rosterEntry s n).silence + 1 } else rosterEntry s n) = _
  by_cases absent : (rosterEntry s n).presence = .absent
  · simp [absent]
  · by_cases heard : (rosterEntry s n).silence + 1 < s.profile.silenceLimit
    · simp [absent, heard]
    · simp [absent, heard]

/-! ### The quiet count and the member mark count -/

/-- The quiet count after a mark boundary of a MEMBER. -/
def quietCount (s : State) : Nat := min (s.membership.quiet + 1) s.profile.silenceLimit

theorem countQuiet_other {s : State} (h : s.membership.state ≠ .member) : countQuiet s = s := if_neg h

/-- An offer whose losses have no consequence touches the queue, the Bus Interface and the Monitor alone. -/
theorem offer_quiet_eq {p : Payload} (h : 5 ≤ kindCode (payloadKind p)) {s : State} (leaving : s.membership.leaving = none) :
    offer p s = { s with queue := (offer p s).queue, bus := (offer p s).bus, monitor := (offer p s).monitor } := by
  obtain ⟨⟨profile, response, -, clock, pending, -, port, pin, inputs⟩, membership, timer, orders, carrier⟩ := offerQuietly_keeps p s
  rw [← offer_quiet h leaving] at profile response clock pending port pin inputs membership timer orders carrier
  rw [← profile, ← response, ← clock, ← pending, ← port, ← pin, ← inputs, ← membership, ← timer, ← orders, ← carrier]

/-- The quiet count rises at a MEMBER; the refresh HELLO touches the queue, the Bus Interface and the Monitor alone. -/
theorem countQuiet_member {s : State} (member : s.membership.state = .member) (leaving : s.membership.leaving = none) :
    ∃ (q : TransmitQueue) (b : BusInterface) (m : Monitor),
      countQuiet s = { s with membership := { s.membership with quiet := quietCount s }, queue := q, bus := b, monitor := m } ∧
      (quietCount s < s.profile.silenceLimit / 2 ∨ helloWaiting s = true → q = s.queue ∧ m = s.monitor) ∧
      (s.profile.silenceLimit / 2 ≤ quietCount s → (∀ e ∈ s.queue.entries, payloadKind e.payload ≠ .hello) →
        s.queue.entries.length < 8 → m = s.monitor ∧ q.entries = s.queue.entries ++
          [⟨s.queue.nextIdent, s.queue.nextIdent, .hello .member s.profile.group (digestOf s.profile)⟩]) := by
  have step : countQuiet s = if (decide (s.profile.silenceLimit / 2 ≤ quietCount s) && !helloWaiting s) = true then
      offer (ownHello .member s) { s with membership := { s.membership with quiet := quietCount s } }
    else { s with membership := { s.membership with quiet := quietCount s } } := if_pos member
  by_cases refresh : (decide (s.profile.silenceLimit / 2 ≤ quietCount s) && !helloWaiting s) = true
  · rw [step, if_pos refresh]
    obtain ⟨due, idle⟩ := (Bool.and_eq_true ..).mp refresh
    have due := of_decide_eq_true due
    have counted := offer_quiet_eq (kindCode_hello .member s)
      (s := { s with membership := { s.membership with quiet := quietCount s } }) leaving
    refine ⟨_, _, _, counted, fun kept => ?_, fun _ noHello room => ?_⟩
    · rcases kept with low | waits
      · omega
      · rw [waits] at idle; cases idle
    · rw [offer_room (ownHello .member s) { s with membership := { s.membership with quiet := quietCount s } }
        (fun e he => sameLimit_hello_false (noHello e he)) room]
      exact ⟨rfl, rfl⟩
  · rw [step, if_neg refresh]
    refine ⟨s.queue, s.bus, s.monitor, rfl, fun _ => ⟨rfl, rfl⟩, fun due noHello _ => ?_⟩
    have idle : helloWaiting s = false := by
      rw [helloWaiting, List.any_eq_false]
      intro e he
      simp [noHello e he]
    exact absurd (by rw [idle, decide_eq_true due]; rfl) refresh

theorem countMemberMark_eq (s : State) : countMemberMark s = { s with membership :=
    { s.membership with
      memberMarks := if s.membership.state = .member then min (s.membership.memberMarks + 1) 64 else s.membership.memberMarks
      withdrawals :=
        if s.membership.state = .member ∧ 63 ≤ s.membership.memberMarks then 0 else s.membership.withdrawals } } := by
  unfold countMemberMark
  by_cases member : s.membership.state = .member
  · have steady : min (s.membership.memberMarks + 1) Config.steadyMarks = Config.steadyMarks ↔ 63 ≤ s.membership.memberMarks := by
      show min (s.membership.memberMarks + 1) 64 = 64 ↔ _
      omega
    simp only [member, if_true, steady, true_and]
    rfl
  · simp only [member, if_false, false_and]

/-! ### The mark boundary -/

/-- The queue at a mark boundary without the waiting EPOCHs of earlier marks. -/
def freshQueue (s : State) : TransmitQueue := (purgeWhere (fun e => isStaleEpoch (nowEpoch s) e.payload) s).queue

/-- The Monitor after the silent peers of a mark boundary were lost. -/
def silencedMonitor (s : State) : Monitor :=
  silentNotices s.profile.noticeMask (s.timer.grid.map (·.counter)) (silentPeers s) s.monitor

/-- Whether a HELLO waits in the queue that a mark boundary leaves. -/
def freshHelloWaits (s : State) : Bool :=
  (freshQueue s).entries.any fun e => payloadKind e.payload == .hello && !inTransmission s e

/-- The actions of a mark boundary at a station with a counter and no open ballot. -/
theorem markBoundary_of_none {s : State} (noBallots : openBallots s = []) (grid : gridState s.membership.state = true)
    (own : rosterEntry s (ownNumber s) = RosterEntry.absent) (leaving : s.membership.leaving = none) :
    ∃ (q : TransmitQueue) (b : BusInterface) (m : Monitor),
      markBoundary s = { s with
        membership := { s.membership with
          runningMismatch := 0
          roster := silencedRoster s
          quiet := if s.membership.state = .member then quietCount s else s.membership.quiet
          memberMarks :=
            if s.membership.state = .member then min (s.membership.memberMarks + 1) 64 else s.membership.memberMarks
          withdrawals :=
            if s.membership.state = .member ∧ 63 ≤ s.membership.memberMarks then 0 else s.membership.withdrawals }
        queue := q, bus := b, monitor := m } ∧
      (s.membership.state ≠ .member ∨ quietCount s < s.profile.silenceLimit / 2 ∨ freshHelloWaits s = true →
        q = freshQueue s ∧ m = silencedMonitor s) ∧
      (s.membership.state = .member → s.profile.silenceLimit / 2 ≤ quietCount s →
        (∀ e ∈ (freshQueue s).entries, payloadKind e.payload ≠ .hello) → (freshQueue s).entries.length < 8 →
        m = silencedMonitor s ∧ q.entries = (freshQueue s).entries ++
          [⟨s.queue.nextIdent, s.queue.nextIdent, .hello .member s.profile.group (digestOf s.profile)⟩]) := by
  obtain ⟨b, purged, sending⟩ : ∃ b : BusInterface,
      purgeWhere (fun e => isStaleEpoch (nowEpoch s) e.payload) { s with membership := { s.membership with runningMismatch := 0 } } =
        { s with membership := { s.membership with runningMismatch := 0 }, queue := freshQueue s, bus := b } ∧
      ∀ e : QueueEntry, (b.sending.any fun a => a.ident == e.ident && !a.displaced) = inTransmission s e :=
    ⟨_, rfl, inTransmission_purgeWhere (fun e => isStaleEpoch (nowEpoch s) e.payload) s⟩
  have silenced := countSilence_of_none
    (s := { s with membership := { s.membership with runningMismatch := 0 }, queue := freshQueue s, bus := b }) noBallots grid own
  have step : markBoundary s = countMemberMark (countQuiet (countSilence
      (purgeWhere (fun e => isStaleEpoch (nowEpoch s) e.payload) { s with membership := { s.membership with runningMismatch := 0 } }))) := rfl
  rw [step, purged, silenced]
  by_cases member : s.membership.state = .member
  · obtain ⟨q, b', m, counted, kept, hello⟩ := countQuiet_member (s := { s with
        membership := { s.membership with runningMismatch := 0, roster := silencedRoster s }
        queue := freshQueue s, bus := b, monitor := silencedMonitor s }) member leaving
    refine ⟨q, b', m, ?_, fun undisturbed => kept ?_, fun _ due noHello room => hello due noHello room⟩
    · refine (congrArg countMemberMark counted).trans ((countMemberMark_eq _).trans ?_)
      simp only [member, if_true]
      rfl
    · refine (undisturbed.resolve_left (not_not_intro member)).imp_right fun waits => ?_
      rw [← waits]
      exact congrArg (fun f => List.any (freshQueue s).entries f) (funext fun e =>
        congrArg (fun c => payloadKind e.payload == .hello && !c) (sending e))
  · refine ⟨freshQueue s, b, silencedMonitor s, ?_, fun _ => ⟨rfl, rfl⟩, fun absurd => (member absurd).elim⟩
    refine (congrArg countMemberMark (countQuiet_other (s := { s with
        membership := { s.membership with runningMismatch := 0, roster := silencedRoster s }
        queue := freshQueue s, bus := b, monitor := silencedMonitor s }) member)).trans ((countMemberMark_eq _).trans ?_)
    simp only [member, if_false]

/-- Settles O38. -/
theorem markBoundaryAtAMember : Obligations.MarkBoundaryAtAMember := by
  intro ch s g hg due states tables mark noBallots noTargets lead member quiet kept lost noHello helloWaits
  have grid : gridState s.membership.state = true := by rcases states with state | state <;> rw [state] <;> rfl
  have leaving := leaving_none_of_tables tables fun state => by rw [state] at grid; cases grid
  have acted : boundaryActed g ch s = { s with
      timer := (advanceEpoch g ch s).timer
      membership := { s.membership with
        blindHorizon := if s.membership.blindHorizon = some g.counter then none else s.membership.blindHorizon } } := by
    have noTarget : orderWithTarget (advanceEpoch g ch s) (nowEpoch (advanceEpoch g ch s)) = none := by
      rw [advanceEpoch_now, orderWithTarget_none, advanceEpoch_eq]
      exact noTargets
    have noClose : closingBallot (advanceEpoch g ch s) = none :=
      (closingBallot_advance g ch s).mpr fun b hb => by rw [noBallots] at hb; cases hb
    rw [boundaryActed, voteClose_none noClose, fireDue_none noTarget, clearBlindHorizon_eq (advanceEpoch_now g ch s)]
    exact congrArg (fun u : State => { u with membership := { u.membership with
      blindHorizon := if u.membership.blindHorizon = some g.counter then none else u.membership.blindHorizon } }) (advanceEpoch_eq g ch s)
  have timerGrid := advanceEpoch_grid g ch s
  have timerAll := advanceEpoch_timer g ch s
  rw [if_pos mark] at timerAll
  generalize (advanceEpoch g ch s).timer = timer at acted timerGrid timerAll
  generalize (if s.membership.blindHorizon = some g.counter then none else s.membership.blindHorizon) = horizon at acted
  generalize base : ({ s with timer := timer, membership := { s.membership with blindHorizon := horizon } } : State) = u at acted
  have run : exec (.epochBoundary ch) s = .next (markBoundary u) := by
    rw [exec_epochBoundary_due hg due, afterBoundary, if_pos mark, acted]
  obtain ⟨q, b, m, marked, undisturbed, refreshed⟩ := markBoundary_of_none (s := u) (by rw [← base]; exact noBallots)
    (by rw [← base]; exact grid) (by rw [← base]; exact tables.2.2.1) (by rw [← base]; exact leaving)
  have uSent : ∀ e, inTransmission u e = inTransmission s e := fun e => by rw [← base]; rfl
  have uQueue : u.queue = s.queue := by rw [← base]
  have uGrid : u.timer.grid = some ⟨g.counter + 1, 0, 0, false⟩ := by rw [← base]; exact timerGrid
  have keptEntries : (freshQueue u).entries = kept := by
    have now : nowEpoch u = g.counter + 1 := nowEpoch_of_grid uGrid
    show List.filter (fun e => !(isStaleEpoch (nowEpoch u) e.payload && !inTransmission u e)) u.queue.entries = _
    rw [uQueue]
    refine List.filter_congr fun e _ => ?_
    rw [now, uSent]
    cases payload : e.payload
    case epoch mark horizon digest =>
      show (!(aheadOf mark (g.counter + 1) && !inTransmission s e)) = (inTransmission s e || !aheadOf mark (g.counter + 1))
      cases aheadOf mark (g.counter + 1) <;> cases inTransmission s e <;> rfl
    all_goals rfl
  have told : silencedMonitor u = lost.foldl (fun m n => postNotice s.profile.noticeMask
      ⟨.peerLost n .silent, some (g.counter + 1)⟩ m) s.monitor := by
    rw [silencedMonitor, ← base]
    show silentNotices _ (timer.grid.map _) _ _ = _
    rw [timerGrid]
    rfl
  have waiting : helloWaits → freshHelloWaits u = true := by
    rintro ⟨e, he, hello, waits⟩
    rw [freshHelloWaits, keptEntries, List.any_eq_true]
    refine ⟨e, he, ?_⟩
    rw [hello, uSent, waits]
    rfl
  have still : ¬ member ∨ quiet < s.profile.silenceLimit / 2 ∨ helloWaits → q = freshQueue u ∧ m = silencedMonitor u :=
    fun calm => undisturbed (by rw [← base] at waiting ⊢; exact calm.imp_right (Or.imp_right waiting))
  have refreshing : member → s.profile.silenceLimit / 2 ≤ quiet → noHello → kept.length < 8 →
      m = silencedMonitor u ∧ q.entries = kept ++
        [⟨s.queue.nextIdent, s.queue.nextIdent, .hello .member s.profile.group (digestOf s.profile)⟩] := by
    rw [keptEntries, ← base] at refreshed
    rw [← base]
    exact refreshed
  have measured : measuredLead ch s = lead := by
    unfold measuredLead
    simp only [lead]
    cases ch
    · cases s.timer.leadFall <;> rfl
    · rfl
  refine ⟨markBoundary u, run, ?_⟩
  rw [marked, ← base]
  refine ⟨timerGrid, by rw [timerAll], by rw [timerAll, measured], fun n => silencedRoster_get s n,
    fun yes => ⟨if_pos yes, if_pos yes, if_congr (and_iff_right yes) rfl rfl⟩,
    fun no => ⟨if_neg no, if_neg no, if_neg fun both => no both.1⟩, fun calm => ?_, fun yes due silent room => (refreshing yes due silent room).2,
    fun calm => ?_, rfl, rfl, rfl, rfl⟩
  · rw [(still calm).1]
    exact keptEntries
  · rw [← told]
    by_cases known : ¬ member ∨ quiet < s.profile.silenceLimit / 2 ∨ helloWaits
    · exact (still known).2
    · obtain ⟨isMember, busy⟩ := not_or.mp known
      obtain ⟨due, noWait⟩ := not_or.mp busy
      obtain ⟨silent, room⟩ := ((calm.resolve_left isMember).resolve_left due).resolve_left noWait
      exact (refreshing (not_not.mp isMember) (Nat.le_of_not_lt due) silent room).1

end Sys2Proof.Machine
end
end
